-- ==== Sys2Proof/Word.lean ====
section
/-! DEFINITION. The word types of the block (R7, R8): widths fixed by the spec. -/

namespace Sys2Proof

/-- u8: a serial byte, a host address, an opcode, an ARG field. -/
abbrev Byte := BitVec 8

/-- u12: one axis of a raw sample (R12). -/
abbrev U12 := BitVec 12

/-- u16: one display coordinate (R44). -/
abbrev U16 := BitVec 16

/-- u20: one accumulator (R173). -/
abbrev U20 := BitVec 20

/-- u32: a host register, a command word, a binary32 bit pattern. -/
abbrev Word := BitVec 32

end Sys2Proof
end

