-- ==== Sys2Proof/Config.lean ====
section
/-! DEFINITION. What a build of the block fixes (R7), and the free values of the environment (R6, R22). -/

namespace Sys2Proof

/-- The two serial engines (R100); also the value of AUTO_MODE and of STATUS.MODE_EFF after INIT. -/
inductive TransportMode where
  | hw
  | sw
  deriving DecidableEq, Repr

/-- MEDIAN_ROUND (R191). -/
inductive MedianRound where
  | floor
  | halfUp
  deriving DecidableEq, Repr

/-- CLAMP_MODE (R214). -/
inductive ClampMode where
  | range
  | wrap16
  deriving DecidableEq, Repr

/-- The implementation parameters of R7. State holds one `Params` that no step changes, so that every
statement about a state holds for every build (DESIGN CHOICE, safe, entry 1). -/
structure Params where
  mMax : Nat
  rescale : Word
  cmdX : Byte
  cmdY : Byte
  autoMode : TransportMode
  hwDiv : Nat
  swHalf : Nat
  tSettle : Nat
  medianRound : MedianRound
  clampMode : ClampMode
  deriving DecidableEq, Repr

/-- A binary32 pattern that is finite and not zero (the constraint on RESCALE, R7, R212). -/
def finiteNonzero (v : Word) : Bool :=
  v.extractLsb' 23 8 != 255#8 && v.extractLsb' 0 31 != 0#31

/-- The constraints R7 puts on the parameters. -/
structure Params.Legal (p : Params) : Prop where
  mMax_pos : 1 ≤ p.mMax
  mMax_le : p.mMax ≤ 16
  rescale : finiteNonzero p.rescale = true
  cmd_ne : p.cmdX ≠ p.cmdY
  hwDiv_even : p.hwDiv % 2 = 0
  hwDiv_pos : 2 ≤ p.hwDiv
  swHalf : 1 ≤ p.swHalf
  tSettle : 1 ≤ p.tSettle

/-- PREC_RESET (R7): "default 3". -/
def precReset : Byte := 3#8

/-- CLAMP_LIMIT (R7, R214). -/
def clampLimit : Nat := 60000

/-- The OPEN parameters of R7: constants without a body, so that no proof can use their values (entry 1). -/
opaque Config.openRescale : Word
opaque Config.openCmdX : Byte
opaque Config.openCmdYGap : Fin 255
opaque Config.openHwHalf : Nat
opaque Config.openSwHalf : Nat
opaque Config.openSettle : Nat

/-- The build that State.reset takes: the spec's default where R7 gives one (entry 2), an OPEN value
elsewhere. The OPEN values enter so that every legal value, and no illegal one, is possible. -/
def Config.build : Params where
  mMax := 10
  rescale := if finiteNonzero Config.openRescale then Config.openRescale else 0x3F800000#32
  cmdX := Config.openCmdX
  cmdY := Config.openCmdX + 1#8 + BitVec.ofNat 8 Config.openCmdYGap.val
  autoMode := .hw
  hwDiv := 2 * (Config.openHwHalf + 1)
  swHalf := Config.openSwHalf + 1
  tSettle := Config.openSettle + 1
  medianRound := .floor
  clampMode := .range

/-- Free values past the end of the inputs State holds (R6, R22, entry 3): a level of `ts_miso` at a
rising SCLK edge, a level of `ts_penirq_n` at a PenSample, the two levels a read of PINS shows, and
how often the host moves before the sequencer's next step (entry 4): any number, but a number, which
is R298's weak fairness of the sequencer. Each is asked with a fresh index. -/
opaque Config.freeMiso : Nat → Bool
opaque Config.freePen : Nat → Bool
opaque Config.freePinMiso : Nat → Bool
opaque Config.freePinPen : Nat → Bool
opaque Config.freeHostMoves : Nat → Nat

end Sys2Proof
end

