-- ==== Sys2Proof/Syntax.lean ====
section
/-! DEFINITION. The commands (R80, R81): one constructor per row of the opcode table. -/

namespace Sys2Proof

/-- A command word less its RSVD field, which the block ignores (R82). Every command carries its ARG
field, because acceptance latches it whatever the command (R84); only SET_PREC, XFER_WRITE and
READ_AXIS use it (R89). -/
inductive Instr where
  /-- NOP, OP = 0x00; ARG ignored (R231). -/
  | nop (arg : Byte)
  /-- INIT, OP = 0x01; ARG ignored (R232, R233). -/
  | init (arg : Byte)
  /-- READ_TOUCH, OP = 0x02; ARG ignored (R235). -/
  | readTouch (arg : Byte)
  /-- WAIT_TOUCH, OP = 0x03; ARG ignored (R158). -/
  | waitTouch (arg : Byte)
  /-- WAIT_RELEASE, OP = 0x04; ARG ignored (R160). -/
  | waitRelease (arg : Byte)
  /-- SET_CAL, OP = 0x05; ARG ignored (R211). -/
  | setCal (arg : Byte)
  /-- SET_PREC, OP = 0x06; ARG = n, the number of samples (R171). -/
  | setPrec (arg : Byte)
  /-- IS_TOUCHED, OP = 0x08; ARG ignored (R156). -/
  | isTouched (arg : Byte)
  /-- MEASURE, OP = 0x09; ARG ignored (R177). -/
  | measure (arg : Byte)
  /-- GATHER, OP = 0x0A; ARG ignored (R195). -/
  | gather (arg : Byte)
  /-- TRANSFORM, OP = 0x0B; ARG ignored (R217). -/
  | transform (arg : Byte)
  /-- CS_ASSERT, OP = 0x10; ARG ignored (R110). -/
  | csAssert (arg : Byte)
  /-- CS_DEASSERT, OP = 0x11; ARG ignored (R111). -/
  | csDeassert (arg : Byte)
  /-- XFER_WRITE, OP = 0x12; ARG = the byte to send (R112). -/
  | xferWrite (arg : Byte)
  /-- XFER_READ, OP = 0x13; ARG ignored (R113). -/
  | xferRead (arg : Byte)
  /-- READ_AXIS, OP = 0x14; ARG = the command byte (R138). -/
  | readAxis (arg : Byte)
  /-- READ_RAW, OP = 0x15; ARG ignored (R139). -/
  | readRaw (arg : Byte)
  deriving DecidableEq, Repr

end Sys2Proof
end

