-- ==== Sys2Proof/WellFormed.lean ====
section
/-! DEFINITION. Which commands have an argument the spec calls legal (R81, R89). An ill-formed command
still decodes and is refused when it is written (R255). -/

namespace Sys2Proof

/-- SET_PREC takes n in 1..255 (R81, R171); every other command takes any ARG (R82, R255). -/
def Instr.wellFormed : Instr → Bool
  | .setPrec n => n != 0#8
  | .nop _ | .init _ | .readTouch _ | .waitTouch _ | .waitRelease _ | .setCal _ | .isTouched _
  | .measure _ | .gather _ | .transform _ | .csAssert _ | .csDeassert _ | .xferWrite _
  | .xferRead _ | .readAxis _ | .readRaw _ => true

end Sys2Proof
end

