-- ==== Sys2Proof/Decode.lean ====
section
/-! DEFINITION. The decoder, the encoder and the disassembler of command words (R80–R83, R88–R90, R93). -/

namespace Sys2Proof

/-- Why a command word is no command: its OP is reserved (R83). -/
inductive DecodeError where
  | reservedOp (op : Byte)
  deriving DecidableEq, Repr

/-- The opcode map of R81, on the two fields that matter. -/
def decodeFields (op arg : Byte) : Except DecodeError Instr :=
  match op.toNat with
  | 0x00 => .ok (.nop arg)
  | 0x01 => .ok (.init arg)
  | 0x02 => .ok (.readTouch arg)
  | 0x03 => .ok (.waitTouch arg)
  | 0x04 => .ok (.waitRelease arg)
  | 0x05 => .ok (.setCal arg)
  | 0x06 => .ok (.setPrec arg)
  | 0x08 => .ok (.isTouched arg)
  | 0x09 => .ok (.measure arg)
  | 0x0A => .ok (.gather arg)
  | 0x0B => .ok (.transform arg)
  | 0x10 => .ok (.csAssert arg)
  | 0x11 => .ok (.csDeassert arg)
  | 0x12 => .ok (.xferWrite arg)
  | 0x13 => .ok (.xferRead arg)
  | 0x14 => .ok (.readAxis arg)
  | 0x15 => .ok (.readRaw arg)
  | _ => .error (.reservedOp op)

/-- R90: the decoder is total; it reads OP, keeps ARG and ignores RSVD (R82). -/
def decode (w : Word) : Except DecodeError Instr :=
  decodeFields (w.extractLsb' 0 8) (w.extractLsb' 8 8)

/-- The OP value of a command (R81). -/
def Instr.opcode : Instr → Byte
  | .nop _ => 0x00#8
  | .init _ => 0x01#8
  | .readTouch _ => 0x02#8
  | .waitTouch _ => 0x03#8
  | .waitRelease _ => 0x04#8
  | .setCal _ => 0x05#8
  | .setPrec _ => 0x06#8
  | .isTouched _ => 0x08#8
  | .measure _ => 0x09#8
  | .gather _ => 0x0A#8
  | .transform _ => 0x0B#8
  | .csAssert _ => 0x10#8
  | .csDeassert _ => 0x11#8
  | .xferWrite _ => 0x12#8
  | .xferRead _ => 0x13#8
  | .readAxis _ => 0x14#8
  | .readRaw _ => 0x15#8

/-- The ARG field of a command (R80). -/
def Instr.arg : Instr → Byte
  | .nop a => a
  | .init a => a
  | .readTouch a => a
  | .waitTouch a => a
  | .waitRelease a => a
  | .setCal a => a
  | .setPrec a => a
  | .isTouched a => a
  | .measure a => a
  | .gather a => a
  | .transform a => a
  | .csAssert a => a
  | .csDeassert a => a
  | .xferWrite a => a
  | .xferRead a => a
  | .readAxis a => a
  | .readRaw a => a

/-- The word of a command with a given RSVD field (R80). -/
def encodeWith (rsvd : BitVec 16) (i : Instr) : Word :=
  rsvd ++ i.arg ++ i.opcode

/-- The word software should write: RSVD = 0 (R80). -/
def encode (i : Instr) : Word :=
  encodeWith 0#16 i

/-- The bytes of a bus word on a byte-addressed interconnect, lowest address first (R62). -/
def laneBytes (w : Word) : List Byte :=
  [w.extractLsb' 0 8, w.extractLsb' 8 8, w.extractLsb' 16 8, w.extractLsb' 24 8]

/-- The bus word that four byte lanes make (R62). -/
def ofLaneBytes (b0 b1 b2 b3 : Byte) : Word :=
  b3 ++ b2 ++ b1 ++ b0

/-- The command word that the table numbers `w`, `nbits` of its bits given and the rest 0: one 32-bit
word (R88), laid out in its byte lanes and read back. -/
def tableWord (nbits w : Nat) : Word :=
  match laneBytes (BitVec.ofNat 32 (w % 2 ^ nbits)) with
  | [b0, b1, b2, b3] => ofLaneBytes b0 b1 b2 b3
  | _ => 0#32

/-- The command this decoder reads from the table's word. -/
def decodeTableWord (nbits w : Nat) : Option Instr :=
  match decode (tableWord nbits w) with
  | .ok i => some i
  | .error _ => none

/-- The mnemonic of a command (R81). -/
def Instr.mnemonic : Instr → String
  | .nop _ => "NOP"
  | .init _ => "INIT"
  | .readTouch _ => "READ_TOUCH"
  | .waitTouch _ => "WAIT_TOUCH"
  | .waitRelease _ => "WAIT_RELEASE"
  | .setCal _ => "SET_CAL"
  | .setPrec _ => "SET_PREC"
  | .isTouched _ => "IS_TOUCHED"
  | .measure _ => "MEASURE"
  | .gather _ => "GATHER"
  | .transform _ => "TRANSFORM"
  | .csAssert _ => "CS_ASSERT"
  | .csDeassert _ => "CS_DEASSERT"
  | .xferWrite _ => "XFER_WRITE"
  | .xferRead _ => "XFER_READ"
  | .readAxis _ => "READ_AXIS"
  | .readRaw _ => "READ_RAW"

/-- One upper-case hexadecimal digit. -/
def hexDigit (d : Nat) : Char :=
  if d < 10 then Char.ofNat (48 + d) else Char.ofNat (55 + d)

/-- The low `k` hexadecimal digits of `n`, most significant first. -/
def hexDigits : Nat → Nat → List Char
  | 0, _ => []
  | k + 1, n => hexDigits k (n / 16) ++ [hexDigit (n % 16)]

/-- The decimal digits of a number of at most three digits, with no leading zero. -/
def decDigits (n : Nat) : List Char :=
  let d (x : Nat) := Char.ofNat (48 + x % 10)
  if n < 10 then [d n] else if n < 100 then [d (n / 10), d n] else [d (n / 100), d (n / 10), d n]

/-- The operand part of a disassembled command (R93): ARG in hexadecimal, in decimal for SET_PREC. -/
def Instr.operandText : Instr → List Char
  | .setPrec a => ' ' :: decDigits a.toNat
  | .xferWrite a => ' ' :: '0' :: 'x' :: hexDigits 2 a.toNat
  | .readAxis a => ' ' :: '0' :: 'x' :: hexDigits 2 a.toNat
  | .nop _ => []
  | .init _ => []
  | .readTouch _ => []
  | .waitTouch _ => []
  | .waitRelease _ => []
  | .setCal _ => []
  | .isTouched _ => []
  | .measure _ => []
  | .gather _ => []
  | .transform _ => []
  | .csAssert _ => []
  | .csDeassert _ => []
  | .xferRead _ => []
  | .readRaw _ => []

/-- The disassembly of a command word, as characters (R93). -/
def disassemble (w : Word) : List Char :=
  match decode w with
  | .ok i => i.mnemonic.toList ++ i.operandText
  | .error _ => ".illegal 0x".toList ++ hexDigits 8 w.toNat

end Sys2Proof
end

