-- ==== Sys2Proof/Machine/State.lean ====
section
/-! DEFINITION. The state of the block (R24–R56), of its environment's pending inputs (R6), and its
reset value (R281). Plain data throughout. -/

namespace Sys2Proof.Machine

/-- Why a step can stop. No run of the block reaches either (R250 has no fault; entry 16). -/
inductive Fault where
  /-- Raised by a command in flight whose sequencer position is none of its pseudocode's. Safe: the
  model stops where the hardware cannot be. -/
  | foreignPosition
  /-- Raised by `step` when BUSY = 1 and no command is in flight. Safe, for the same reason. -/
  | noCommandInFlight
  deriving DecidableEq, Repr

/-- Why an instruction has no meaning here. -/
inductive Refusal where
  /-- Raised by `exec`'s arm of an instruction that has no meaning yet. Safe. No arm raises it. -/
  | notModelled (mnemonic : String)
  deriving DecidableEq, Repr

/-- A pair of u12 values, x and y: a raw sample, a measurement, a median pair or TIN (R12, R45). -/
structure Sample where
  x : U12
  y : U12
  deriving DecidableEq, Repr

/-- A display coordinate (R12, R44). -/
structure Coord where
  xd : U16
  yd : U16
  deriving DecidableEq, Repr

/-- XFER (R48): RXBYTE and AXIS. -/
structure XferReg where
  rxByte : Byte
  axis : U12
  deriving DecidableEq, Repr

/-- The six coefficients, each a binary32 bit pattern (R50, R210). -/
structure Matrix where
  a : Word
  b : Word
  c : Word
  d : Word
  e : Word
  f : Word
  deriving DecidableEq, Repr

/-- CFG.MODE (R28); the reserved 0b11 is never stored (R29). -/
inductive CfgMode where
  | auto
  | hardware
  | software
  deriving DecidableEq, Repr

/-- CFG (R28). -/
structure Cfg where
  mode : CfgMode
  useIrq : Bool
  deriving DecidableEq, Repr

/-- STATUS.ERR (R251); the codes 7–15 are never produced. -/
inductive ErrCode where
  | none
  | illegalOp
  | notInit
  | reinit
  | busHeld
  | badArg
  | timeout
  deriving DecidableEq, Repr

/-- STATUS (R32). CS_HELD and MODE_EFF are also the hidden `cs_held` and `mode_eff` (R56). -/
structure Status where
  busy : Bool
  initDone : Bool
  touching : Bool
  complete : Bool
  csHeld : Bool
  cmdOvr : Bool
  modeEff : Option TransportMode
  err : ErrCode
  nMeas : BitVec 5
  deriving DecidableEq, Repr

/-- The serial lines (R20, R53): `ts_cs_n`, `ts_sclk`, `ts_mosi`, `ts_oe`. -/
structure Pins where
  csN : Bool
  sclk : Bool
  mosi : Bool
  oe : Bool
  deriving DecidableEq, Repr

/-- Where `readAxis` stands: the next primitive of R136. -/
inductive AxisPos where
  | command
  | settle
  | highByte
  | lowByte
  | read12
  deriving DecidableEq, Repr

/-- Where `readRaw` stands: the next primitive of R137. -/
inductive RawPos where
  | csOn
  | x (p : AxisPos)
  | y (p : AxisPos)
  | csOff
  deriving DecidableEq, Repr

/-- What a raw-sample transaction or a PenSample is for: READ_RAW's result (R139), the discard read
(R174), a summed sample (R175), a presence check (R154), READ_TOUCH's gate (R235). -/
inductive Use where
  | result
  | discard
  | sample
  | check
  | gate
  deriving DecidableEq, Repr

/-- `seq.pos` less its loop indices (R25, R56): the primitive the sequencer performs next. -/
inductive Pos where
  | idle
  | setCs
  | exchange
  | axis (p : AxisPos)
  | raw (u : Use) (p : RawPos)
  | pen (u : Use)
  | commit
  deriving DecidableEq, Repr

/-- `seq.res` (R56): what the steps of the command in flight have produced so far. -/
structure Results where
  byte : Byte
  axis : U12
  x : U12
  y : U12
  mean : Sample
  touched : Bool
  gate : Bool
  complete : Bool
  timedOut : Bool
  deriving DecidableEq, Repr

/-- The sequencer (R56): `op` is an opcode, or none for IDLE; `i`, `j`, `p` are the loop indices of
`seq.pos`, with `p` unbounded (R265, entry 14). -/
structure Seq where
  op : Option Byte
  arg : Byte
  pos : Pos
  i : Nat
  j : Nat
  p : Nat
  limit : Word
  tin : Sample
  cfg : Cfg
  res : Results
  deriving DecidableEq, Repr

/-- The registers inside the engines (R56, R265): shift registers, bit counters, SCLK dividers, the
settling counter. What they hold between primitives: entry 11. -/
structure Engines where
  hwShift : Byte
  hwBit : Nat
  hwDivider : Nat
  swShift : Byte
  swBit : Nat
  swDivider : Nat
  readShift : U12
  readBit : Nat
  settle : Nat
  deriving DecidableEq, Repr

/-- The synchronizer flops, SYNC_STAGES = 2 per input (R7, R22, entry 10). -/
structure SyncFlops where
  miso : BitVec 2
  pen : BitVec 2
  deriving DecidableEq, Repr

/-- One event of the history (R296). -/
inductive Event where
  | cs (asserted : Bool)
  | xfer (out inp : Byte)
  | read12 (v : U12)
  | delay
  | pen (level : Bool)
  deriving DecidableEq, Repr

/-- One action of the host (R91, R92, R280): `write` and `read` are MemWrite and MemRead, `waitIdle`
reads STATUS until BUSY = 0, `reset` is R280's one step, `setRst` drives the level of `rst_n`. -/
inductive HostAction where
  | write (addr : Byte) (data : Word)
  | read (addr : Byte)
  | waitIdle
  | reset
  | setRst (level : Bool)
  deriving DecidableEq, Repr

/-- The two agents between which R6 leaves the order open. -/
inductive Agent where
  | host
  | sequencer
  deriving DecidableEq, Repr

/-- The inputs not yet taken (entries 3, 4, 5): the host's actions, the order of the agents, the levels
of `ts_miso` and `ts_penirq_n` at each sampling, and the two levels each PINS read shows. Where a list
has run out a free value is taken: `fresh` and, for PINS alone, `freshPins` are the index of the next
one, and `hostMoves` is what the last one for the order has left: the host's moves before the
sequencer's next step, none where no number stands. -/
structure Env where
  script : List HostAction
  turns : List Agent
  hostMoves : Option Nat
  miso : List Bool
  pen : List Bool
  pins : List (Bool × Bool)
  fresh : Nat
  freshPins : Nat
  deriving DecidableEq, Repr

end Sys2Proof.Machine

namespace Sys2Proof.Machine

/-- The state of R24–R56, then the model's own fields `build`, `reads` and `env` (entries 1, 3, 12). -/
structure State where
  cfg : Cfg
  cfgLocked : Bool
  status : Status
  prec : Byte
  waitLimit : Word
  coord : Coord
  raw : Sample
  meas : Sample
  med : Sample
  xfer : XferReg
  tin : Sample
  cal : Matrix
  calAct : Matrix
  mbuf : Vector Sample 16
  pins : Pins
  seq : Seq
  accX : U20
  accY : U20
  mvals : Vector Sample 16
  engines : Engines
  sync : SyncFlops
  rstN : Bool
  rdata : Word
  hist : List Event
  build : Params
  reads : List (Byte × Word)
  env : Env
  deriving DecidableEq, Repr

/-- The pair (0, 0). -/
def Sample.zero : Sample := ⟨0#12, 0#12⟩

/-- Six times +0.0 (R50, R51). -/
def Matrix.zero : Matrix := ⟨0#32, 0#32, 0#32, 0#32, 0#32, 0#32⟩

/-- R28: Auto, no pen line. -/
def Cfg.reset : Cfg := ⟨.auto, false⟩

/-- R32: 0x00000000. -/
def Status.reset : Status where
  busy := false
  initDone := false
  touching := false
  complete := false
  csHeld := false
  cmdOvr := false
  modeEff := Option.none
  err := .none
  nMeas := 0#5

/-- R281: CS_N 1, SCLK 0, MOSI 0, OE 0. -/
def Pins.reset : Pins := ⟨true, false, false, false⟩

/-- R281 leaves `seq.res` unspecified (DESIGN CHOICE all 0, unsafe, entry 9). -/
def Results.reset : Results where
  byte := 0#8
  axis := 0#12
  x := 0#12
  y := 0#12
  mean := Sample.zero
  touched := false
  gate := false
  complete := false
  timedOut := false

/-- R56, R281. The loop indices at IDLE are 0 (DESIGN CHOICE, unsafe, entry 13). -/
def Seq.reset : Seq where
  op := Option.none
  arg := 0#8
  pos := .idle
  i := 0
  j := 0
  p := 0
  limit := 0#32
  tin := Sample.zero
  cfg := Cfg.reset
  res := Results.reset

/-- R56: shift registers and bit counters 0; R265's counters 0 too (DESIGN CHOICE, unsafe, entry 11). -/
def Engines.reset : Engines := ⟨0#8, 0, 0, 0#8, 0, 0, 0#12, 0, 0⟩

/-- R281 leaves the flops unspecified (DESIGN CHOICE 0, unsafe, entry 10). -/
def SyncFlops.reset : SyncFlops := ⟨0#2, 0#2⟩

/-- No input pending (DESIGN CHOICE, entries 3, 4, 5). -/
def Env.empty : Env := ⟨[], [], none, [], [], [], 0, 0⟩

/-- The reset state of R281 of a block with the given build, history, reads and inputs. `mvals` is
unspecified there (DESIGN CHOICE all 0, unsafe, entry 8). -/
def State.resetOf (build : Params) (hist : List Event) (reads : List (Byte × Word)) (env : Env) :
    State where
  cfg := Cfg.reset
  cfgLocked := false
  status := Status.reset
  prec := precReset
  waitLimit := 0#32
  coord := ⟨0#16, 0#16⟩
  raw := Sample.zero
  meas := Sample.zero
  med := Sample.zero
  xfer := ⟨0#8, 0#12⟩
  tin := Sample.zero
  cal := Matrix.zero
  calAct := Matrix.zero
  mbuf := Vector.replicate 16 Sample.zero
  pins := Pins.reset
  seq := Seq.reset
  accX := 0#20
  accY := 0#20
  mvals := Vector.replicate 16 Sample.zero
  engines := Engines.reset
  sync := SyncFlops.reset
  rstN := true
  rdata := 0#32
  hist := hist
  build := build
  reads := reads
  env := env

/-- The machine right after reset (R281). -/
def State.reset : State :=
  State.resetOf Config.build [] [] Env.empty

end Sys2Proof.Machine
end

