-- ==== Sys2Proof/Machine/Operands.lean ====
section
/-! DEFINITION. Operand assembly (R89), the sample decoder (R130) and the layouts of the registers as
32-bit words (R27–R55). -/

namespace Sys2Proof.Machine

/-- R130: the 16-bit clocked window of two received bytes. -/
def window16 (b1 b2 : Byte) : U16 :=
  (b1.setWidth 16 <<< 8) ||| b2.setWidth 16

/-- R130: shift right by 3 and mask to 12 bits. -/
def decode16 (b1 b2 : Byte) : U12 :=
  (((window16 b1 b2) >>> 3) &&& 0x0FFF#16).setWidth 12

/-- The layout of R45: x in [11:0], y in [27:16], the rest 0. -/
def Sample.word (v : Sample) : Word :=
  0#4 ++ v.y ++ 0#4 ++ v.x

/-- The fields of a word in the layout of R45; the other bits are dropped (TIN, R49). -/
def Sample.ofWord (w : Word) : Sample :=
  ⟨w.extractLsb' 0 12, w.extractLsb' 16 12⟩

/-- POS (R44): Xd in [15:0], Yd in [31:16]. -/
def Coord.word (c : Coord) : Word :=
  c.yd ++ c.xd

/-- XFER (R48): RXBYTE in [7:0], AXIS in [27:16]. -/
def XferReg.word (v : XferReg) : Word :=
  0#4 ++ v.axis ++ 0#8 ++ v.rxByte

/-- CFG.MODE as stored (R28). -/
def CfgMode.bits : CfgMode → BitVec 2
  | .auto => 0#2
  | .hardware => 1#2
  | .software => 2#2

/-- CFG (R28). -/
def Cfg.word (c : Cfg) : Word :=
  0#29 ++ BitVec.ofBool c.useIrq ++ c.mode.bits

/-- A write to an unlocked CFG (R28, R29): a MODE of 0b11 leaves MODE as it was, USE_IRQ is stored. -/
def Cfg.write (c : Cfg) (w : Word) : Cfg where
  mode :=
    match (w.extractLsb' 0 2).toNat with
    | 0 => .auto
    | 1 => .hardware
    | 2 => .software
    | _ => c.mode
  useIrq := w.getLsbD 2

/-- STATUS.MODE_EFF (R39). -/
def modeEffBits : Option TransportMode → BitVec 2
  | Option.none => 0#2
  | some .hw => 1#2
  | some .sw => 2#2

/-- The codes of R251. -/
def ErrCode.code : ErrCode → BitVec 4
  | .none => 0#4
  | .illegalOp => 1#4
  | .notInit => 2#4
  | .reinit => 3#4
  | .busHeld => 4#4
  | .badArg => 5#4
  | .timeout => 6#4

/-- STATUS (R32). -/
def Status.word (s : Status) : Word :=
  0#11 ++ s.nMeas ++ 0#4 ++ s.err.code ++ modeEffBits s.modeEff ++ BitVec.ofBool s.cmdOvr
    ++ BitVec.ofBool s.csHeld ++ BitVec.ofBool s.complete ++ BitVec.ofBool s.touching
    ++ BitVec.ofBool s.initDone ++ BitVec.ofBool s.busy

/-- PINS (R53) with the levels of MISO and PENIRQ_N that this read draws. -/
def Pins.word (p : Pins) (miso pen : Bool) : Word :=
  0#26 ++ BitVec.ofBool p.oe ++ BitVec.ofBool pen ++ BitVec.ofBool miso ++ BitVec.ofBool p.mosi
    ++ BitVec.ofBool p.sclk ++ BitVec.ofBool p.csN

/-- PARAMS (R54). -/
def paramsWord (p : Params) : Word :=
  0#8 ++ p.cmdY ++ p.cmdX ++ BitVec.ofBool (p.clampMode == .wrap16)
    ++ BitVec.ofBool (p.medianRound == .halfUp) ++ BitVec.ofBool (p.autoMode == .sw)
    ++ BitVec.ofNat 5 p.mMax

/-- ID (R27). -/
def idWord : Word := 0x54464501#32

/-- The register operands a command latches at acceptance (R84): TIN, WAIT_LIMIT or CFG. -/
def latchOperands (i : Instr) (s : State) (q : Seq) : Seq :=
  match i with
  | .transform _ => { q with tin := s.tin }
  | .waitTouch _ | .waitRelease _ => { q with limit := s.waitLimit }
  | .init _ => { q with cfg := s.cfg }
  | .nop _ | .readTouch _ | .setCal _ | .setPrec _ | .isTouched _ | .measure _ | .gather _
  | .csAssert _ | .csDeassert _ | .xferWrite _ | .xferRead _ | .readAxis _ | .readRaw _ => q

/-- INIT's acceptance locks CFG (R84, R232); no other command's does. -/
def locksCfg : Instr → Bool
  | .init _ => true
  | .nop _ | .readTouch _ | .waitTouch _ | .waitRelease _ | .setCal _ | .setPrec _ | .isTouched _
  | .measure _ | .gather _ | .transform _ | .csAssert _ | .csDeassert _ | .xferWrite _
  | .xferRead _ | .readAxis _ | .readRaw _ => false

end Sys2Proof.Machine
end

