-- ==== Sys2Proof/Machine/Flags.lean ====
section
/-! DEFINITION. The checks a command meets when it is written (R253–R257), and the presence
comparator (R150–R153). -/

namespace Sys2Proof.Machine

/-- "Needs INIT" of R81 and R253: every command that uses the serial bus or the presence line. -/
def needsInit : Instr → Bool
  | .readTouch _ | .waitTouch _ | .waitRelease _ | .isTouched _ | .measure _ | .gather _
  | .csAssert _ | .csDeassert _ | .xferWrite _ | .xferRead _ | .readAxis _ | .readRaw _ => true
  | .nop _ | .init _ | .setCal _ | .setPrec _ | .transform _ => false

/-- The transaction commands (R87, R254); the presence commands are among them when USE_IRQ = 0. -/
def isTransaction (useIrq : Bool) : Instr → Bool
  | .readTouch _ | .measure _ | .gather _ | .readRaw _ => true
  | .isTouched _ | .waitTouch _ | .waitRelease _ => !useIrq
  | .nop _ | .init _ | .setCal _ | .setPrec _ | .transform _ | .csAssert _ | .csDeassert _
  | .xferWrite _ | .xferRead _ | .readAxis _ => false

/-- A second INIT (R234). -/
def isReinit (cfgLocked : Bool) : Instr → Bool
  | .init _ => cfgLocked
  | .nop _ | .readTouch _ | .waitTouch _ | .waitRelease _ | .setCal _ | .setPrec _ | .isTouched _
  | .measure _ | .gather _ | .transform _ | .csAssert _ | .csDeassert _ | .xferWrite _
  | .xferRead _ | .readAxis _ | .readRaw _ => false

/-- SET_PREC with ARG = 0 (R255). -/
def isBadArg : Instr → Bool
  | .setPrec n => n == 0#8
  | .nop _ | .init _ | .readTouch _ | .waitTouch _ | .waitRelease _ | .setCal _ | .isTouched _
  | .measure _ | .gather _ | .transform _ | .csAssert _ | .csDeassert _ | .xferWrite _
  | .xferRead _ | .readAxis _ | .readRaw _ => false

/-- `check` of R257, in its order, for a word whose OP is not reserved. -/
def check (i : Instr) (s : State) : ErrCode :=
  if isReinit s.cfgLocked i then .reinit
  else if needsInit i && !s.status.initDone then .notInit
  else if isTransaction s.cfg.useIrq i && s.status.csHeld then .busHeld
  else if isBadArg i then .badArg
  else .none

/-- The range comparator of R150. -/
def isSampleValid (v : U12) : Bool :=
  decide (0 < v.toNat) && decide (v.toNat < 4095)

/-- A raw sample is valid when both axes are (R153). -/
def Sample.valid (v : Sample) : Bool :=
  isSampleValid v.x && isSampleValid v.y

end Sys2Proof.Machine
end

