-- ==== Sys2Proof/Machine/Ops.lean ====
section
/-! DEFINITION. The shared operations: draws, the serial engines, the primitives (R9), acceptance,
refusal and commit (R84–R86, R252), and the steps of `readAxis`, `readRaw` and a presence check. -/

namespace Sys2Proof.Machine

/-- The outcome of a step of this machine. -/
abbrev Out := Host.Outcome State Fault Refusal

/-! ## Draws (R22, entry 3) -/

/-- The level of `ts_miso` at the next sampling. -/
def Env.takeMiso (e : Env) : Bool × Env :=
  match e.miso with
  | b :: rest => (b, { e with miso := rest })
  | [] => (Config.freeMiso e.fresh, { e with fresh := e.fresh + 1 })

/-- The level of `ts_penirq_n` at the next PenSample. -/
def Env.takePen (e : Env) : Bool × Env :=
  match e.pen with
  | b :: rest => (b, { e with pen := rest })
  | [] => (Config.freePen e.fresh, { e with fresh := e.fresh + 1 })

/-- The levels of MISO and PENIRQ_N that the next read of PINS shows; no primitive takes them (R53). -/
def Env.takePins (e : Env) : (Bool × Bool) × Env :=
  match e.pins with
  | b :: rest => (b, { e with pins := rest })
  | [] =>
    ((Config.freePinMiso e.freshPins, Config.freePinPen e.freshPins),
      { e with freshPins := e.freshPins + 1 })

/-- The turn is the host's while `n` of its moves are left, then the sequencer's. -/
def Env.spendHostMove (e : Env) : Nat → Agent × Env
  | 0 => (.sequencer, { e with hostMoves := none })
  | n + 1 => (.host, { e with hostMoves := some n })

/-- Which agent moves where both can (R6, entry 4). Past the list of turns the number of host moves
before the sequencer's next step is a free value, drawn when the last number is spent: the sequencer
always gets its step at last (R298). -/
def Env.takeTurn (e : Env) : Agent × Env :=
  match e.turns with
  | a :: rest => (a, { e with turns := rest })
  | [] =>
    match e.hostMoves with
    | some n => e.spendHostMove n
    | none => { e with fresh := e.fresh + 1 }.spendHostMove (Config.freeHostMoves e.fresh)

/-! ## The serial engines (R100–R106) -/

/-- One stretch of constant `ts_sclk` and `ts_mosi`, and how many `clk` cycles it lasts. -/
structure PinPhase where
  sclk : Bool
  mosi : Bool
  cycles : Nat
  deriving DecidableEq, Repr

/-- What one exchange on the wire gives: the bits received, the levels driven, the inputs left. -/
structure Exchange (n : Nat) where
  rx : BitVec n
  wave : List PinPhase
  env : Env

/-- `i[k] <- b` in a byte whose bit `k` is still 0. -/
def withBit (i : Byte) (k : Nat) (b : Bool) : Byte :=
  i ||| ((BitVec.ofBool b).setWidth 8 <<< k)

/-- The loop of R102 from bit `k - 1` down to bit 0: MOSI set up while SCLK is low, MISO sampled at the
rising edge, each level held for HW_DIV/2 cycles. -/
def hwClock (div : Nat) (o : Byte) : Nat → Byte → Env → Exchange 8
  | 0, i, e => ⟨i, [], e⟩
  | k + 1, i, e =>
    let r := hwClock div o k (withBit i k e.takeMiso.1) e.takeMiso.2
    ⟨r.rx, ⟨false, o.getLsbD k, div / 2⟩ :: ⟨true, o.getLsbD k, div / 2⟩ :: r.wave, r.env⟩

/-- `HwEngine.exchange` (R102). -/
def hwExchange (div : Nat) (o : Byte) (e : Env) : Exchange 8 :=
  hwClock div o 8 0#8 e

/-- The loop of R103 from bit `k - 1` down to bit 0: the clock toggled by hand, each half SW_HALF
cycles, MISO sampled while the clock is high. -/
def swClock (half : Nat) (o : Byte) : Nat → Byte → Env → Exchange 8
  | 0, i, e => ⟨i, [], e⟩
  | k + 1, i, e =>
    let r := swClock half o k (withBit i k e.takeMiso.1) e.takeMiso.2
    ⟨r.rx, ⟨false, o.getLsbD k, half⟩ :: ⟨true, o.getLsbD k, half⟩ :: r.wave, r.env⟩

/-- `SwEngine.exchange` (R103). -/
def swExchange (half : Nat) (o : Byte) (e : Env) : Exchange 8 :=
  swClock half o 8 0#8 e

/-- `v <- (v << 1) | b` at 12 bits (R106). -/
def shiftIn (v : U12) (b : Bool) : U12 :=
  (v <<< 1) ||| (BitVec.ofBool b).setWidth 12

/-- The loop of R106 for the last `k` pulses, MOSI held low. -/
def read12Clock (half : Nat) : Nat → U12 → Env → Exchange 12
  | 0, v, e => ⟨v, [], e⟩
  | k + 1, v, e =>
    let r := read12Clock half k (shiftIn v e.takeMiso.1) e.takeMiso.2
    ⟨r.rx, ⟨false, false, half⟩ :: ⟨true, false, half⟩ :: r.wave, r.env⟩

/-- `SwEngine.read12` (R106). -/
def swRead12 (half : Nat) (e : Env) : Exchange 12 :=
  read12Clock half 12 0#12 e

/-- The exchange of the engine the arbiter has selected (R100, R101). -/
def State.exchange (s : State) (o : Byte) : Exchange 8 :=
  if s.status.modeEff = some .hw then hwExchange s.build.hwDiv o s.env
  else swExchange s.build.swHalf o s.env

/-- The selected engine's registers after an exchange that received `i` (entry 11). -/
def State.enginesAfter (s : State) (i : Byte) : Engines :=
  if s.status.modeEff = some .hw then
    { s.engines with hwShift := i, hwBit := 0, hwDivider := 0 }
  else
    { s.engines with swShift := i, swBit := 0, swDivider := 0 }

/-- Between primitives SCLK and MOSI are low (R104). -/
def Pins.idleClock (p : Pins) : Pins :=
  { p with sclk := false, mosi := false }

/-! ## Primitives (R9): each is one sequencer step and records one event (R296) -/

/-- `SetCS(a)`. -/
def State.setCs (a : Bool) (s : State) : State :=
  { s with pins := { s.pins with csN := !a }, hist := s.hist ++ [.cs a] }

/-- `BusXfer(o)` (R101). -/
def State.busXfer (o : Byte) (s : State) : Byte × State :=
  ((s.exchange o).rx,
    { s with
      env := (s.exchange o).env
      hist := s.hist ++ [.xfer o (s.exchange o).rx]
      pins := s.pins.idleClock
      engines := s.enginesAfter (s.exchange o).rx
      sync := { s.sync with miso := (s.exchange o).rx.extractLsb' 0 2 } })

/-- `BusRead12()` (R106). -/
def State.busRead12 (s : State) : U12 × State :=
  ((swRead12 s.build.swHalf s.env).rx,
    { s with
      env := (swRead12 s.build.swHalf s.env).env
      hist := s.hist ++ [.read12 (swRead12 s.build.swHalf s.env).rx]
      pins := s.pins.idleClock
      engines :=
        { s.engines with
          readShift := (swRead12 s.build.swHalf s.env).rx, readBit := 0, swDivider := 0 }
      sync := { s.sync with miso := (swRead12 s.build.swHalf s.env).rx.extractLsb' 0 2 } })

/-- `Settle()`: the counter of R265 runs out and T_SETTLE cycles have passed (R136). -/
def State.settle (s : State) : State :=
  { s with hist := s.hist ++ [.delay], engines := { s.engines with settle := 0 } }

/-- `PenSample()` (R152). -/
def State.penSample (s : State) : Bool × State :=
  (s.env.takePen.1,
    { s with
      env := s.env.takePen.2
      hist := s.hist ++ [.pen s.env.takePen.1]
      sync := { s.sync with pen := s.sync.pen.extractLsb' 0 1 ++ BitVec.ofBool s.env.takePen.1 } })

/-! ## Acceptance, refusal, commit (R84–R86, R252) -/

/-- `raise CmdError(code)` (R9, R252): ERR and nothing else. -/
def State.raiseCmdError (code : ErrCode) (s : State) : State :=
  { s with status := { s.status with err := code } }

/-- A CMD write made while BUSY = 1 (R85): CMD_OVR and nothing else. -/
def State.dropCmd (s : State) : State :=
  { s with status := { s.status with cmdOvr := true } }

/-- Acceptance (R84), with `start` the position of the command's first step. The loop indices start at
0 (R157, entry 13). -/
def State.accept (i : Instr) (start : Pos) (s : State) : State :=
  { s with
    status := { s.status with err := .none, busy := true }
    cfgLocked := s.cfgLocked || locksCfg i
    seq := latchOperands i s
      { s.seq with op := some i.opcode, arg := i.arg, pos := start, i := 0, j := 0, p := 0 } }

/-- A CMD write of the command `i` while BUSY = 0: refused with the code of R257, or accepted. -/
def State.submit (i : Instr) (start : Pos) (s : State) : State :=
  if check i s = .none then s.accept i start else s.raiseCmdError (check i s)

/-- The part of `commit` common to all commands (R86): the final ERR, BUSY = 0, the sequencer IDLE. -/
def State.commit (code : ErrCode) (s : State) : State :=
  { s with
    status := { s.status with err := code, busy := false }
    seq := { s.seq with op := Option.none, pos := .idle } }

/-- The command in flight (R56): what `seq.op` and `seq.arg` decode to, or none at IDLE. -/
def Seq.inFlight (q : Seq) : Option Instr :=
  match q.op with
  | Option.none => Option.none
  | some op =>
    match decodeFields op q.arg with
    | .ok i => some i
    | .error _ => Option.none

/-- What the block does about the command `i` (entry 6). While idle, `i` is written to CMD (R84). While
`i` is in flight, the sequencer takes one step of its pseudocode, `body`, which has no answer at a
position that the pseudocode does not have. While another command is in flight, `i` is a CMD write
that is dropped (R85). -/
def State.command (i : Instr) (start : Pos) (body : State → Option State) (s : State) : Out :=
  if s.status.busy = false then .next (s.submit i start)
  else if s.seq.inFlight = some i then
    match body s with
    | some t => .next t
    | Option.none => .fault .foreignPosition
  else .next s.dropCmd

/-! ## Steps of the shared pseudocode -/

/-- Move the sequencer. -/
def State.goto (p : Pos) (s : State) : State :=
  { s with seq := { s.seq with pos := p } }

/-- Keep results for the pending commit. -/
def State.keep (f : Results → Results) (s : State) : State :=
  { s with seq := { s.seq with res := f s.seq.res } }

/-- What one step of `readAxis` leaves to do: another step, or a value. -/
inductive AxisNext where
  | step (p : AxisPos)
  | value (v : U12)
  deriving DecidableEq, Repr

/-- One primitive of `readAxis(c)` (R133, R134, R136). -/
def State.axisStep (c : Byte) (p : AxisPos) (s : State) : AxisNext × State :=
  match p with
  | .command => (.step .settle, (s.busXfer c).2)
  | .settle => (.step (if s.status.modeEff = some .hw then .highByte else .read12), s.settle)
  | .highByte =>
    (.step .lowByte, (s.busXfer 0x00#8).2.keep fun r => { r with byte := (s.busXfer 0x00#8).1 })
  | .lowByte =>
    (.value (decode16 s.seq.res.byte (s.busXfer 0x00#8).1), (s.busXfer 0x00#8).2)
  | .read12 => (.value s.busRead12.1, s.busRead12.2)

/-- One primitive of `readRaw()` (R137) run for the use `u`; `done` is the computation around the last
one. -/
def State.rawStep (u : Use) (p : RawPos) (done : Sample → State → State) (s : State) : State :=
  match p with
  | .csOn => (s.setCs true).goto (.raw u (.x .command))
  | .x q =>
    match s.axisStep s.build.cmdX q with
    | (.step q', t) => t.goto (.raw u (.x q'))
    | (.value v, t) => (t.keep fun r => { r with x := v }).goto (.raw u (.y .command))
  | .y q =>
    match s.axisStep s.build.cmdY q with
    | (.step q', t) => t.goto (.raw u (.y q'))
    | (.value v, t) => (t.keep fun r => { r with y := v }).goto (.raw u .csOff)
  | .csOff => done ⟨s.seq.res.x, s.seq.res.y⟩ (s.setCs false)

/-- Where `touched()` begins (R154). -/
def State.touchedPos (u : Use) (s : State) : Pos :=
  if s.cfg.useIrq then .pen u else .raw u .csOn

/-- `touchedIrq()` (R152): touched exactly when the line is low. -/
def State.penStep (done : Bool → State → State) (s : State) : State :=
  done (!s.penSample.1) s.penSample.2

/-- One primitive of `touchedSample()` (R153); the sample itself stays in `seq.res`. -/
def State.sampleStep (u : Use) (p : RawPos) (done : Bool → State → State) (s : State) : State :=
  s.rawStep u p (fun v => done v.valid)

end Sys2Proof.Machine
end

