-- ==== Sys2Proof/Machine/Binary32.lean ====
section
/-! DEFINITION. Binary32 values and the rounded operations of R10 and R213. Every finite binary32 value
is a whole number of units of 2^-149, so a value is held as a sign and a number of units, and each
operation is computed exactly and rounded once. Infinities, NaN and the sign of zero follow IEEE 754,
as R10 does (PRESUMED, entry 15). -/

namespace Sys2Proof.Machine

/-- A binary32 value: `fin neg n` is `n` units of 2^-149, negated when `neg`. NaN has no payload here:
no rule reads one (R214, entry 15). -/
inductive Fp where
  | nan
  | inf (neg : Bool)
  | fin (neg : Bool) (units : Nat)
  deriving DecidableEq, Repr

/-- `f32(v)` (R10), subnormals kept (R213). -/
def f32 (v : Word) : Fp :=
  let neg := v.getLsbD 31
  let expo := (v.extractLsb' 23 8).toNat
  let frac := (v.extractLsb' 0 23).toNat
  if expo = 255 then if frac = 0 then .inf neg else .nan
  else if expo = 0 then .fin neg frac
  else .fin neg ((2 ^ 23 + frac) * 2 ^ (expo - 1))

/-- `num / den` rounded to the nearest whole number, ties to even. -/
def roundNearestEven (num den : Nat) : Nat :=
  let q := num / den
  let r := num % den
  if 2 * r < den then q
  else if den < 2 * r then q + 1
  else if q % 2 = 0 then q else q + 1

/-- How far below the leading bit of `q` units the last place of a 24-bit significand lies; 0 for
subnormals and the smallest normals, whose last place is one unit. -/
def lastPlace (q : Nat) : Nat :=
  Nat.log2 q - 23

/-- `fl(x)` (R10) for the magnitude `num / den` units: 24 significant bits, and infinity from 2^128
(2^277 units) on. -/
def fl (neg : Bool) (num den : Nat) : Fp :=
  let k := lastPlace (num / den)
  let n := roundNearestEven num (den * 2 ^ k) * 2 ^ k
  if 2 ^ 277 ≤ n then .inf neg else .fin neg n

/-- `⊗` (R10). -/
def Fp.mul : Fp → Fp → Fp
  | .nan, _ => .nan
  | .inf _, .nan => .nan
  | .fin _ _, .nan => .nan
  | .inf a, .inf b => .inf (a ^^ b)
  | .inf a, .fin b n => if n = 0 then .nan else .inf (a ^^ b)
  | .fin a n, .inf b => if n = 0 then .nan else .inf (a ^^ b)
  | .fin a n, .fin b m => fl (a ^^ b) (n * m) (2 ^ 149)

/-- `⊕` (R10); an exact zero sum of opposite signs is +0. -/
def Fp.add : Fp → Fp → Fp
  | .nan, _ => .nan
  | .inf _, .nan => .nan
  | .fin _ _, .nan => .nan
  | .inf a, .inf b => if a = b then .inf a else .nan
  | .inf a, .fin _ _ => .inf a
  | .fin _ _, .inf b => .inf b
  | .fin a n, .fin b m =>
    if a = b then fl a (n + m) 1
    else if m < n then fl a (n - m) 1
    else if n < m then fl b (m - n) 1
    else .fin false 0

/-- `⊘` (R10). -/
def Fp.div : Fp → Fp → Fp
  | .nan, _ => .nan
  | .inf _, .nan => .nan
  | .fin _ _, .nan => .nan
  | .inf _, .inf _ => .nan
  | .inf a, .fin b _ => .inf (a ^^ b)
  | .fin a _, .inf b => .fin (a ^^ b) 0
  | .fin a n, .fin b m =>
    if m = 0 then if n = 0 then .nan else .inf (a ^^ b)
    else fl (a ^^ b) (n * 2 ^ 149) m

/-- `binary32(x)` of a u12: exact (R213). -/
def Fp.ofU12 (v : U12) : Fp :=
  .fin false (v.toNat * 2 ^ 149)

/-- `trunc(x)` (R10) of `n` units with sign `neg`: toward zero. -/
def truncUnits (neg : Bool) (n : Nat) : Int :=
  if neg then -((n / 2 ^ 149 : Nat) : Int) else ((n / 2 ^ 149 : Nat) : Int)

end Sys2Proof.Machine
end

