-- ==== Sys2Proof/Machine/Affine.lean ====
section
/-! DEFINITION. affine_xform_clamper: SET_CAL and TRANSFORM (R210–R219). -/

namespace Sys2Proof.Machine

/-- `xformAxis` (R213): one rounded operation at a time, left to right. -/
def xformAxis (rescale p q r : Word) (x y : U12) : Fp :=
  let t1 := (f32 p).mul (Fp.ofU12 x)
  let t2 := (f32 q).mul (Fp.ofU12 y)
  let t3 := t1.add t2
  let t4 := t3.add (f32 r)
  t4.div (f32 rescale)

/-- The clamp of R214 on the truncated integer. -/
def clampInt (mode : ClampMode) (i : Int) : U16 :=
  match mode with
  | .range => if i < 0 ∨ (clampLimit : Int) < i then 0#16 else BitVec.ofInt 16 i
  | .wrap16 => if (clampLimit : Int) < i % 65536 then 0#16 else BitVec.ofInt 16 i

/-- `toCoord` (R214): NaN and the infinities give 0; otherwise truncate, then clamp. -/
def toCoord (mode : ClampMode) (t : Fp) : U16 :=
  match t with
  | .nan => 0#16
  | .inf _ => 0#16
  | .fin neg n => clampInt mode (truncUnits neg n)

/-- `xform` (R216): both axes with the same active matrix. -/
def xform (b : Params) (m : Matrix) (v : Sample) : Coord where
  xd := toCoord b.clampMode (xformAxis b.rescale m.a m.b m.c v.x v.y)
  yd := toCoord b.clampMode (xformAxis b.rescale m.d m.e m.f v.x v.y)

/-- SET_CAL's steps (R211): its commit copies the six staged coefficients in one step. -/
def stepSetCal (s : State) : Option State :=
  match s.seq.pos with
  | .commit => some ({ s with calAct := s.cal }.commit .none)
  | .idle | .setCs | .exchange | .axis _ | .raw _ _ | .pen _ => none

/-- SET_CAL (R211). -/
def execSetCal (arg : Byte) (s : State) : Out :=
  s.command (.setCal arg) .commit stepSetCal

/-- TRANSFORM's steps (R217): its commit writes POS from the latched TIN. -/
def stepTransform (s : State) : Option State :=
  match s.seq.pos with
  | .commit => some ({ s with coord := xform s.build s.calAct s.seq.tin }.commit .none)
  | .idle | .setCs | .exchange | .axis _ | .raw _ _ | .pen _ => none

/-- TRANSFORM (R217). -/
def execTransform (arg : Byte) (s : State) : Out :=
  s.command (.transform arg) .commit stepTransform

end Sys2Proof.Machine
end

