-- ==== Sys2Proof/Machine/Accumulator.lean ====
section
/-! DEFINITION. intra_sample_accumulator: SET_PREC and MEASURE (R170–R179), and the steps of `measure()`
that GATHER and READ_TOUCH share. -/

namespace Sys2Proof.Machine

/-- SET_PREC's steps (R171). -/
def stepSetPrec (s : State) : Option State :=
  match s.seq.pos with
  | .commit => some ({ s with prec := s.seq.arg }.commit .none)
  | .idle | .setCs | .exchange | .axis _ | .raw _ _ | .pen _ => none

/-- SET_PREC (R171); n = 0 is refused when it is written (R255). -/
def execSetPrec (arg : Byte) (s : State) : Out :=
  s.command (.setPrec arg) .commit stepSetPrec

/-- The discard read has ended (R174, R175): its sample is dropped and the sums start at 0. -/
def discardDone (s : State) : State :=
  { s with accX := 0#20, accY := 0#20, seq := { s.seq with j := 1 } }.goto (.raw .sample .csOn)

/-- `acc <- acc + zext_20(sample)` on both axes (R175); rails are added like any value (R176). -/
def State.accumulate (v : Sample) (s : State) : State :=
  { s with accX := s.accX + v.x.setWidth 20, accY := s.accY + v.y.setWidth 20 }

/-- A truncated quotient as a u12 (R175). -/
def quotient (acc : U20) (n : Byte) : U12 :=
  BitVec.ofNat 12 (acc.toNat / n.toNat)

/-- The measurement that the sums give (R175). -/
def State.mean (s : State) : Sample :=
  ⟨quotient s.accX s.prec, quotient s.accY s.prec⟩

/-- Sample `j` has been read (R175): take the next one, or hand the measurement to `done`. -/
def sampleDone (done : Sample → State → State) (v : Sample) (s : State) : State :=
  if s.seq.j < s.prec.toNat then
    { s.accumulate v with seq := { s.seq with j := s.seq.j + 1 } }.goto (.raw .sample .csOn)
  else done (s.accumulate v).mean (s.accumulate v)

/-- MEASURE's steps (R177). -/
def stepMeasure (s : State) : Option State :=
  match s.seq.pos with
  | .raw .discard p => some (s.rawStep .discard p fun _ t => discardDone t)
  | .raw .sample p =>
    some (s.rawStep .sample p
      (sampleDone fun m t => (t.keep fun r => { r with mean := m }).goto .commit))
  | .commit => some ({ s with meas := s.seq.res.mean }.commit .none)
  | .raw .result _ | .raw .check _ | .raw .gate _ => none
  | .idle | .setCs | .exchange | .axis _ | .pen _ => none

/-- MEASURE (R177). -/
def execMeasure (arg : Byte) (s : State) : Out :=
  s.command (.measure arg) (.raw .discard .csOn) stepMeasure

end Sys2Proof.Machine
end

