-- ==== Sys2Proof/Machine/Median.lean ====
section
/-! DEFINITION. median_filter_N_stage: the median, the steps of `gather()`, and GATHER (R190–R197). -/

namespace Sys2Proof.Machine

/-- Put `v` before the first element that is not smaller. -/
def insertSorted (v : Nat) : List Nat → List Nat
  | [] => [v]
  | w :: rest => if v ≤ w then v :: w :: rest else w :: insertSorted v rest

/-- `sort_ascending` (R190). -/
def sortAscending : List Nat → List Nat
  | [] => []
  | v :: rest => insertSorted v (sortAscending rest)

/-- `mid2` (R191). -/
def mid2 (mode : MedianRound) (a b : Nat) : Nat :=
  match mode with
  | .floor => (a + b) / 2
  | .halfUp => (a + b + 1) / 2

/-- `median` (R190) of the values of one axis. -/
def median (mode : MedianRound) (v : List U12) : U12 :=
  let s := sortAscending (v.map BitVec.toNat)
  let k := v.length
  if k % 2 = 1 then BitVec.ofNat 12 (s.getD ((k - 1) / 2) 0)
  else BitVec.ofNat 12 (mid2 mode (s.getD (k / 2 - 1) 0) (s.getD (k / 2) 0))

/-- The medians of the first `k` measurements, each axis on its own (R192). -/
def medianPair (mode : MedianRound) (set : List Sample) : Sample where
  x := median mode (set.map Sample.x)
  y := median mode (set.map Sample.y)

/-- The number of measurements taken, `k` of R193, while the sequencer stands after measurement `i`. -/
def State.taken (s : State) : Nat :=
  s.seq.i + 1

/-- The MeasurementSet gathered so far: `mvals[0..k-1]` (R193). -/
def State.measured (s : State) : List Sample :=
  s.mvals.toList.take s.taken

/-- Measurement `i` has ended (R193): it enters `mvals` and MBUF, and a presence check follows. -/
def measurementDone (m : Sample) (s : State) : State :=
  { s with mvals := s.mvals.setIfInBounds s.seq.i m, mbuf := s.mbuf.setIfInBounds s.seq.i m }.goto
    (s.touchedPos .check)

/-- The presence check after measurement `i` has answered `t` (R193, R194): stop on lost contact, stop
after the last measurement, or take the next one. -/
def checkDone (t : Bool) (s : State) : State :=
  if t = false then (s.keep fun r => { r with complete := false }).goto .commit
  else if s.taken < s.build.mMax then
    { s with seq := { s.seq with i := s.seq.i + 1 } }.goto (.raw .discard .csOn)
  else (s.keep fun r => { r with complete := true }).goto .commit

/-- The steps of `gather()` (R193) before its commit; `none` at any other position. -/
def gatherStep (s : State) : Option State :=
  match s.seq.pos with
  | .raw .discard p => some (s.rawStep .discard p fun _ t => discardDone t)
  | .raw .sample p => some (s.rawStep .sample p (sampleDone measurementDone))
  | .pen .check => some (s.penStep checkDone)
  | .raw .check p => some (s.sampleStep .check p checkDone)
  | .pen .result | .pen .discard | .pen .sample | .pen .gate => none
  | .raw .result _ | .raw .gate _ => none
  | .idle | .setCs | .exchange | .axis _ | .commit => none

/-- What a gather commits, for GATHER and for a touched READ_TOUCH (R195, R235): MED, COMPLETE, NMEAS,
and TOUCHING = `touching`. -/
def State.withGathered (touching : Bool) (s : State) : State :=
  { s with
    med := medianPair s.build.medianRound s.measured
    status :=
      { s.status with
        complete := s.seq.res.complete
        touching := touching
        nMeas := BitVec.ofNat 5 s.taken } }

/-- GATHER's steps (R195): TOUCHING is the last presence check, which is `complete`. -/
def stepGather (s : State) : Option State :=
  match s.seq.pos with
  | .commit => some ((s.withGathered s.seq.res.complete).commit .none)
  | .idle | .setCs | .exchange | .axis _ | .raw _ _ | .pen _ => gatherStep s

/-- GATHER (R195). -/
def execGather (arg : Byte) (s : State) : Out :=
  s.command (.gather arg) (.raw .discard .csOn) stepGather

end Sys2Proof.Machine
end

