-- ==== Sys2Proof/Machine/Controller.lean ====
section
/-! DEFINITION. The façade's own commands: NOP, INIT and READ_TOUCH (R230–R237). -/

namespace Sys2Proof.Machine

/-- NOP's steps (R231): the commit every command has. -/
def stepNop (s : State) : Option State :=
  match s.seq.pos with
  | .commit => some (s.commit .none)
  | .idle | .setCs | .exchange | .axis _ | .raw _ _ | .pen _ => none

/-- NOP (R231). -/
def execNop (arg : Byte) (s : State) : Out :=
  s.command (.nop arg) .commit stepNop

/-- The engine that CFG.MODE names, Auto being AUTO_MODE (R233). -/
def engineOf (b : Params) : CfgMode → TransportMode
  | .hardware => .hw
  | .software => .sw
  | .auto => b.autoMode

/-- INIT's commit (R233): MODE_EFF, the serial lines at their idle levels and driven, INIT_DONE. -/
def initCommit (s : State) : State :=
  { s with
    status :=
      { s.status with modeEff := some (engineOf s.build s.seq.cfg.mode), initDone := true }
    pins := ⟨true, false, false, true⟩ }.commit .none

/-- INIT's steps (R233). -/
def stepInit (s : State) : Option State :=
  match s.seq.pos with
  | .commit => some (initCommit s)
  | .idle | .setCs | .exchange | .axis _ | .raw _ _ | .pen _ => none

/-- INIT (R232, R233); a second one is refused when it is written (R234). -/
def execInit (arg : Byte) (s : State) : Out :=
  s.command (.init arg) .commit stepInit

/-- READ_TOUCH's gate has answered `t` (R235): the gather, or the commit of R236. -/
def gateDone (t : Bool) (s : State) : State :=
  (s.keep fun r => { r with gate := t }).goto (if t then .raw .discard .csOn else .commit)

/-- READ_TOUCH's commit (R235, R236): the transform is computed in this step. -/
def readTouchCommit (s : State) : State :=
  if s.seq.res.gate then
    { s.withGathered true with
      coord := xform s.build s.calAct (medianPair s.build.medianRound s.measured) }.commit .none
  else { s with status := { s.status with touching := false, complete := false } }.commit .none

/-- READ_TOUCH's steps (R235). -/
def stepReadTouch (s : State) : Option State :=
  match s.seq.pos with
  | .pen .gate => some (s.penStep gateDone)
  | .raw .gate p => some (s.sampleStep .gate p gateDone)
  | .commit => some (readTouchCommit s)
  | .pen .result | .pen .discard | .pen .sample | .pen .check => gatherStep s
  | .raw .result _ | .raw .discard _ | .raw .sample _ | .raw .check _ => gatherStep s
  | .idle | .setCs | .exchange | .axis _ => none

/-- READ_TOUCH (R235). -/
def execReadTouch (arg : Byte) (s : State) : Out :=
  s.command (.readTouch arg) (s.touchedPos .gate) stepReadTouch

end Sys2Proof.Machine
end

