-- ==== Sys2Proof/Machine/Presence.lean ====
section
/-! DEFINITION. touch_presence_comparator: IS_TOUCHED, WAIT_TOUCH and WAIT_RELEASE (R150–R161). -/

namespace Sys2Proof.Machine

/-- The result of IS_TOUCHED's presence check (R156). -/
def isTouchedDone (t : Bool) (s : State) : State :=
  (s.keep fun r => { r with touched := t }).goto .commit

/-- IS_TOUCHED's commit (R156): TOUCHING, and RAW when USE_IRQ = 0. -/
def isTouchedCommit (s : State) : State :=
  { s with
    status := { s.status with touching := s.seq.res.touched }
    raw := if s.cfg.useIrq then s.raw else ⟨s.seq.res.x, s.seq.res.y⟩ }.commit .none

/-- IS_TOUCHED's steps (R156). -/
def stepIsTouched (s : State) : Option State :=
  match s.seq.pos with
  | .pen .check => some (s.penStep isTouchedDone)
  | .raw .check p => some (s.sampleStep .check p isTouchedDone)
  | .commit => some (isTouchedCommit s)
  | .pen .result | .pen .discard | .pen .sample | .pen .gate => none
  | .raw .result _ | .raw .discard _ | .raw .sample _ | .raw .gate _ => none
  | .idle | .setCs | .exchange | .axis _ => none

/-- IS_TOUCHED (R156). -/
def execIsTouched (arg : Byte) (s : State) : Out :=
  s.command (.isTouched arg) (s.touchedPos .check) stepIsTouched

/-- One poll of `waitFor(target)` has answered `t` (R157): end on the target, end on the bound, or poll
again. -/
def waitDone (target t : Bool) (s : State) : State :=
  let u := { s with seq := { s.seq with p := s.seq.p + 1 } }
  if t = target then (u.keep fun r => { r with touched := t, timedOut := false }).goto .commit
  else if s.seq.limit ≠ 0#32 ∧ s.seq.p + 1 = s.seq.limit.toNat then
    (u.keep fun r => { r with touched := t, timedOut := true }).goto .commit
  else u.goto (s.touchedPos .check)

/-- A wait's commit (R157, R159): TOUCHING is the last poll's result, ERR tells a bound run out. -/
def waitCommit (s : State) : State :=
  { s with status := { s.status with touching := s.seq.res.touched } }.commit
    (if s.seq.res.timedOut then .timeout else .none)

/-- The steps of `waitFor(target)` (R157). -/
def stepWait (target : Bool) (s : State) : Option State :=
  match s.seq.pos with
  | .pen .check => some (s.penStep (waitDone target))
  | .raw .check p => some (s.sampleStep .check p (waitDone target))
  | .commit => some (waitCommit s)
  | .pen .result | .pen .discard | .pen .sample | .pen .gate => none
  | .raw .result _ | .raw .discard _ | .raw .sample _ | .raw .gate _ => none
  | .idle | .setCs | .exchange | .axis _ => none

/-- WAIT_TOUCH (R158): `waitFor(1)`. -/
def execWaitTouch (arg : Byte) (s : State) : Out :=
  s.command (.waitTouch arg) (s.touchedPos .check) (stepWait true)

/-- WAIT_RELEASE (R160): `waitFor(0)`. -/
def execWaitRelease (arg : Byte) (s : State) : Out :=
  s.command (.waitRelease arg) (s.touchedPos .check) (stepWait false)

end Sys2Proof.Machine
end

