-- ==== Sys2Proof/Machine/Sampler.lean ====
section
/-! DEFINITION. 12b_sample_decoder: READ_AXIS and READ_RAW (R133–R140). -/

namespace Sys2Proof.Machine

/-- READ_AXIS's steps (R138): `readAxis` with the latched ARG, no chip-select action. -/
def stepReadAxis (s : State) : Option State :=
  match s.seq.pos with
  | .axis p =>
    match s.axisStep s.seq.arg p with
    | (.step q, t) => some (t.goto (.axis q))
    | (.value v, t) => some ((t.keep fun r => { r with axis := v }).goto .commit)
  | .commit => some ({ s with xfer := { s.xfer with axis := s.seq.res.axis } }.commit .none)
  | .idle | .setCs | .exchange | .raw _ _ | .pen _ => none

/-- READ_AXIS (R138). -/
def execReadAxis (arg : Byte) (s : State) : Out :=
  s.command (.readAxis arg) (.axis .command) stepReadAxis

/-- READ_RAW's steps (R139): one raw-sample transaction, stored without validation. -/
def stepReadRaw (s : State) : Option State :=
  match s.seq.pos with
  | .raw .result p => some (s.rawStep .result p fun _ t => t.goto .commit)
  | .commit => some ({ s with raw := ⟨s.seq.res.x, s.seq.res.y⟩ }.commit .none)
  | .raw .discard _ | .raw .sample _ | .raw .check _ | .raw .gate _ => none
  | .idle | .setCs | .exchange | .axis _ | .pen _ => none

/-- READ_RAW (R139). -/
def execReadRaw (arg : Byte) (s : State) : Out :=
  s.command (.readRaw arg) (.raw .result .csOn) stepReadRaw

end Sys2Proof.Machine
end

