-- ==== Sys2Proof/Machine/Transport.lean ====
section
/-! DEFINITION. serial_transport_arbiter: the transport commands CS_ASSERT, CS_DEASSERT, XFER_WRITE and
XFER_READ (R107–R114). -/

namespace Sys2Proof.Machine

/-- CS_ASSERT's steps (R110): SetCS(1), then CS_HELD. -/
def stepCsAssert (s : State) : Option State :=
  match s.seq.pos with
  | .setCs => some ((s.setCs true).goto .commit)
  | .commit => some ({ s with status := { s.status with csHeld := true } }.commit .none)
  | .idle | .exchange | .axis _ | .raw _ _ | .pen _ => none

/-- CS_ASSERT (R110): with CS_HELD = 1 already, it only commits. -/
def execCsAssert (arg : Byte) (s : State) : Out :=
  s.command (.csAssert arg) (if s.status.csHeld then .commit else .setCs) stepCsAssert

/-- CS_DEASSERT's steps (R111): SetCS(0), then CS_HELD cleared. -/
def stepCsDeassert (s : State) : Option State :=
  match s.seq.pos with
  | .setCs => some ((s.setCs false).goto .commit)
  | .commit => some ({ s with status := { s.status with csHeld := false } }.commit .none)
  | .idle | .exchange | .axis _ | .raw _ _ | .pen _ => none

/-- CS_DEASSERT (R111): with CS_HELD = 0 it only commits. -/
def execCsDeassert (arg : Byte) (s : State) : Out :=
  s.command (.csDeassert arg) (if s.status.csHeld then .setCs else .commit) stepCsDeassert

/-- XFER_WRITE's steps (R112): one exchange, its echo discarded. -/
def stepXferWrite (s : State) : Option State :=
  match s.seq.pos with
  | .exchange => some ((s.busXfer s.seq.arg).2.goto .commit)
  | .commit => some (s.commit .none)
  | .idle | .setCs | .axis _ | .raw _ _ | .pen _ => none

/-- XFER_WRITE (R112). -/
def execXferWrite (arg : Byte) (s : State) : Out :=
  s.command (.xferWrite arg) .exchange stepXferWrite

/-- XFER_READ's steps (R113): one exchange of the dummy byte 0x00 (R109). -/
def stepXferRead (s : State) : Option State :=
  match s.seq.pos with
  | .exchange =>
    some (((s.busXfer 0x00#8).2.keep fun r => { r with byte := (s.busXfer 0x00#8).1 }).goto .commit)
  | .commit => some ({ s with xfer := { s.xfer with rxByte := s.seq.res.byte } }.commit .none)
  | .idle | .setCs | .axis _ | .raw _ _ | .pen _ => none

/-- XFER_READ (R113). -/
def execXferRead (arg : Byte) (s : State) : Out :=
  s.command (.xferRead arg) .exchange stepXferRead

end Sys2Proof.Machine
end

