-- ==== Sys2Proof/Machine/Dispatch.lean ====
section
/-! DEFINITION. The dispatch of commands to their meanings, one arm per row of the opcode table (R81). -/

namespace Sys2Proof.Machine

def exec (i : Instr) (s : State) : Host.Outcome State Fault Refusal :=
  match i with
  | .nop arg => Sys2Proof.Machine.execNop arg s
  | .init arg => Sys2Proof.Machine.execInit arg s
  | .readTouch arg => Sys2Proof.Machine.execReadTouch arg s
  | .waitTouch arg => Sys2Proof.Machine.execWaitTouch arg s
  | .waitRelease arg => Sys2Proof.Machine.execWaitRelease arg s
  | .setCal arg => Sys2Proof.Machine.execSetCal arg s
  | .setPrec arg => Sys2Proof.Machine.execSetPrec arg s
  | .isTouched arg => Sys2Proof.Machine.execIsTouched arg s
  | .measure arg => Sys2Proof.Machine.execMeasure arg s
  | .gather arg => Sys2Proof.Machine.execGather arg s
  | .transform arg => Sys2Proof.Machine.execTransform arg s
  | .csAssert arg => Sys2Proof.Machine.execCsAssert arg s
  | .csDeassert arg => Sys2Proof.Machine.execCsDeassert arg s
  | .xferWrite arg => Sys2Proof.Machine.execXferWrite arg s
  | .xferRead arg => Sys2Proof.Machine.execXferRead arg s
  | .readAxis arg => Sys2Proof.Machine.execReadAxis arg s
  | .readRaw arg => Sys2Proof.Machine.execReadRaw arg s

end Sys2Proof.Machine
end

