-- ==== Sys2Proof/Machine/HostBus.lean ====
section
/-! DEFINITION. The host register space (R60–R66, R26), reset (R280–R282), and which agent moves next
(R6, R71). -/

namespace Sys2Proof.Machine

/-- The word address an access reaches: `hb_addr[1:0]` is ignored (R61). -/
def wordAddr (addr : Byte) : Nat :=
  (addr &&& 0xFC#8).toNat

/-- MBUF as the host reads it (R55): entries at or above M_MAX read 0. -/
def State.readMbuf (s : State) (i : Nat) : Word :=
  if i < s.build.mMax then (s.mbuf.toList.getD i Sample.zero).word else 0#32

/-- The register at a word address (R26), with the levels that a read of PINS shows (R53). Reserved
addresses read 0 (R63), and so does CMD (R31). -/
def State.register (s : State) (levels : Bool × Bool) (a : Nat) : Word :=
  match a with
  | 0x00 => idWord
  | 0x04 => s.cfg.word
  | 0x0C => s.status.word
  | 0x10 => s.prec.setWidth 32
  | 0x14 => s.waitLimit
  | 0x18 => s.coord.word
  | 0x1C => s.raw.word
  | 0x20 => s.meas.word
  | 0x24 => s.med.word
  | 0x28 => s.xfer.word
  | 0x2C => s.tin.word
  | 0x30 => s.cal.a
  | 0x34 => s.cal.b
  | 0x38 => s.cal.c
  | 0x3C => s.cal.d
  | 0x40 => s.cal.e
  | 0x44 => s.cal.f
  | 0x50 => s.calAct.a
  | 0x54 => s.calAct.b
  | 0x58 => s.calAct.c
  | 0x5C => s.calAct.d
  | 0x60 => s.calAct.e
  | 0x64 => s.calAct.f
  | 0x68 => s.build.rescale
  | 0x6C => s.pins.word levels.1 levels.2
  | 0x70 => paramsWord s.build
  | _ => if 0x80 ≤ a ∧ a < 0xC0 then s.readMbuf ((a - 0x80) / 4) else 0#32

/-- `MemRead(addr, 4)` (R64) with the levels PINS shows; 0 while `rst_n` is low (R280). -/
def State.memRead (s : State) (levels : Bool × Bool) (addr : Byte) : Word :=
  if s.rstN then s.register levels (wordAddr addr) else 0#32

/-- `MemWrite` to any register but CMD (R65): store, clear CMD_OVR, or be ignored. -/
def State.writeRegister (s : State) (a : Nat) (w : Word) : State :=
  match a with
  | 0x04 => if s.cfgLocked then s else { s with cfg := s.cfg.write w }
  | 0x0C =>
    if w.getLsbD 5 then { s with status := { s.status with cmdOvr := false } } else s
  | 0x14 => { s with waitLimit := w }
  | 0x2C => { s with tin := Sample.ofWord w }
  | 0x30 => { s with cal := { s.cal with a := w } }
  | 0x34 => { s with cal := { s.cal with b := w } }
  | 0x38 => { s with cal := { s.cal with c := w } }
  | 0x3C => { s with cal := { s.cal with d := w } }
  | 0x40 => { s with cal := { s.cal with e := w } }
  | 0x44 => { s with cal := { s.cal with f := w } }
  | _ => s

/-- Reset (R281, R282): every element at its reset value. The build, the history, what the host has
read and the inputs not yet taken are no state of the block and stay (entry 12). -/
def State.resetBlock (s : State) : State :=
  State.resetOf s.build s.hist s.reads s.env

/-- The host drives `rst_n` (R280): low holds the block at its reset state. -/
def State.driveReset (level : Bool) (s : State) : State :=
  if level then { s with rstN := true } else { s.resetBlock with rstN := false }

/-- The host has read `w` at `addr` (R20, entry 12). -/
def State.gotRead (addr : Byte) (w : Word) (s : State) : State :=
  { s with rdata := w, reads := s.reads ++ [(addr, w)] }

/-- One host read (R64): nothing changes but what the host has read and the draws PINS shows. -/
def State.hostRead (addr : Byte) (s : State) : State :=
  if wordAddr addr = 0x6C ∧ s.rstN = true then
    { s with env := s.env.takePins.2 }.gotRead addr (s.memRead s.env.takePins.1 addr)
  else s.gotRead addr (s.memRead (false, false) addr)

/-- What the next step does: run a meaning, end in a state, or find a state no run reaches. -/
inductive Move where
  | run (i : Instr) (s : State)
  | done (s : State)
  | stuck (f : Fault)

/-- A CMD write (R84, R85, R256): dropped while busy, refused when OP is reserved, else a command. -/
def State.writeCmd (w : Word) (s : State) : Move :=
  if s.status.busy then .done s.dropCmd
  else
    match decode w with
    | .ok i => .run i s
    | .error _ => .done (s.raiseCmdError .illegalOp)

/-- `MemWrite(addr, 4, w)` (R65); ignored while `rst_n` is low (R280). -/
def State.hostWrite (addr : Byte) (w : Word) (s : State) : Move :=
  if s.rstN = false then .done s
  else if wordAddr addr = 0x08 then s.writeCmd w
  else .done (s.writeRegister (wordAddr addr) w)

/-- The host action `a` is over: `rest` is left of its script. -/
def State.setScript (rest : List HostAction) (s : State) : State :=
  { s with env := { s.env with script := rest } }

/-- One host action, `rest` being the script after it. WAITIDLE reads STATUS and stays at the head of
the script until BUSY = 0 (R92). -/
def State.hostMove (a : HostAction) (rest : List HostAction) (s : State) : Move :=
  match a with
  | .write addr w => (s.setScript rest).hostWrite addr w
  | .read addr => .done ((s.setScript rest).hostRead addr)
  | .waitIdle =>
    .done ((s.setScript (if s.status.busy then .waitIdle :: rest else rest)).hostRead 0x0C#8)
  | .reset => .done (s.setScript rest).resetBlock
  | .setRst level => .done ((s.setScript rest).driveReset level)

/-- One step of the sequencer: the command in flight. -/
def State.sequencerMove (s : State) : Move :=
  match s.seq.inFlight with
  | some i => .run i s
  | none => .stuck .noCommandInFlight

/-- The sequencer has a step: a command is in flight (R6) and the block is out of reset (R280). -/
def State.sequencerReady (s : State) : Bool :=
  s.status.busy && s.rstN

/-- Which agent moves (R6). The host can move only while it has an action left. Where both can,
`Env.takeTurn` says which. Where neither can, nothing changes (entry 4). -/
def State.nextMove (s : State) : Move :=
  match s.env.script with
  | [] => if s.sequencerReady then s.sequencerMove else .done s
  | a :: rest =>
    if s.sequencerReady then
      match s.env.takeTurn with
      | (.host, e) => { s with env := e }.hostMove a rest
      | (.sequencer, e) => { s with env := e }.sequencerMove
    else s.hostMove a rest

end Sys2Proof.Machine
end

