-- ==== Sys2Proof/Machine/Step.lean ====
section
/-! DEFINITION. One step of the machine: one host access or one sequencer step (R6, R71). -/

namespace Sys2Proof.Machine

/-- One step: what `nextMove` says. -/
def step (s : State) : Host.Outcome State Fault Refusal :=
  match s.nextMove with
  | .run i t => exec i t
  | .done t => .next t
  | .stuck f => .fault f

/-- `s` with the table's command word as the host's next action, and the block out of reset and idle, so
that the next step is that CMD write and nothing drops it (entry 5). -/
def State.withFetchWord (s : State) (nbits w : Nat) : State :=
  { s with
    rstN := true
    status := { s.status with busy := false }
    seq := { s.seq with op := none, pos := .idle }
    env := { s.env with script := .write 0x08#8 (tableWord nbits w) :: s.env.script } }

end Sys2Proof.Machine
end

