-- ==== Sys2Proof/Machine/Pseudocode.lean ====
section
/-! DEFINITION. The spec's pseudocode as whole functions, with no host access between its primitives
(R136, R137, R152–R157, R175, R193, R235). The sequencer takes the same primitives one step at a time;
statements about a whole command compare the two. -/

namespace Sys2Proof.Machine

/-- `readAxis(c)` (R136). -/
def State.readAxisWhole (c : Byte) (s : State) : U12 × State :=
  let s1 := (s.busXfer c).2.settle
  if s.status.modeEff = some .hw then
    let s2 := (s1.busXfer 0x00#8).2
    (decode16 (s1.busXfer 0x00#8).1 (s2.busXfer 0x00#8).1, (s2.busXfer 0x00#8).2)
  else s1.busRead12

/-- `readRaw()` (R137). -/
def State.readRawWhole (s : State) : Sample × State :=
  let x := (s.setCs true).readAxisWhole s.build.cmdX
  let y := x.2.readAxisWhole s.build.cmdY
  (⟨x.1, y.1⟩, y.2.setCs false)

/-- `touchedIrq()` (R152). -/
def State.touchedIrqWhole (s : State) : Bool × State :=
  (!s.penSample.1, s.penSample.2)

/-- `touchedSample()` (R153). -/
def State.touchedSampleWhole (s : State) : Bool × Sample × State :=
  (s.readRawWhole.1.valid, s.readRawWhole.1, s.readRawWhole.2)

/-- `touched()` (R154). -/
def State.touchedWhole (s : State) : Bool × State :=
  if s.cfg.useIrq then s.touchedIrqWhole
  else (s.touchedSampleWhole.1, s.touchedSampleWhole.2.2)

/-- `n` samples read and added up (R175). -/
def State.sumWhole : Nat → State → State
  | 0, s => s
  | n + 1, s => State.sumWhole n (s.readRawWhole.2.accumulate s.readRawWhole.1)

/-- `measure()` (R175): the discard read, then PREC.N samples. -/
def State.measureWhole (s : State) : Sample × State :=
  let t := State.sumWhole s.prec.toNat { s.readRawWhole.2 with accX := 0#20, accY := 0#20 }
  (t.mean, t)

/-- Measurement `i` enters `mvals` and MBUF (R193). -/
def State.storeMeasurement (i : Nat) (m : Sample) (s : State) : State :=
  { s with mvals := s.mvals.setIfInBounds i m, mbuf := s.mbuf.setIfInBounds i m }

/-- What `gather()` answers: `complete`, the number `k` of measurements, and the state (R193). -/
structure Gathered where
  complete : Bool
  k : Nat
  state : State

/-- The loop of `gather()` (R193) from measurement `i` on, `left` measurements still allowed after it. -/
def State.gatherFrom : (left i : Nat) → State → Gathered
  | left, i, s =>
    let m := s.measureWhole
    let t := (m.2.storeMeasurement i m.1).touchedWhole
    match t.1, left with
    | false, _ => ⟨false, i + 1, t.2⟩
    | true, 0 => ⟨true, i + 1, t.2⟩
    | true, left + 1 => State.gatherFrom left (i + 1) t.2

/-- `gather()` (R193). -/
def State.gatherWhole (s : State) : Gathered :=
  State.gatherFrom (s.build.mMax - 1) 0 s

/-- The median pair of a gather (R192, R193). -/
def Gathered.median (g : Gathered) : Sample :=
  medianPair g.state.build.medianRound (g.state.mvals.toList.take g.k)

/-- The registers a gather commits (R195, R235). -/
def Gathered.registers (touching : Bool) (g : Gathered) : State :=
  { g.state with
    med := g.median
    status :=
      { g.state.status with
        complete := g.complete, touching := touching, nMeas := BitVec.ofNat 5 g.k } }

/-- `waitFor(target)` (R157) with the bound `limit`, the polls counted from `p`: the last poll's result
and whether the bound ran out, or none when `fuel` polls did not end it. -/
def State.waitWhole (target : Bool) (limit : Nat) : (fuel p : Nat) → State → Option (Bool × Bool × State)
  | 0, _, _ => none
  | fuel + 1, p, s =>
    let t := s.touchedWhole
    if t.1 = target then some (t.1, false, t.2)
    else if limit ≠ 0 ∧ p + 1 = limit then some (t.1, true, t.2)
    else State.waitWhole target limit fuel (p + 1) t.2

/-- The state after `m` polls of `waitFor(target)` (R157) that are all off target, or none when one of
them is not. -/
def State.pollsOffTarget (target : Bool) : (m : Nat) → State → Option State
  | 0, s => some s
  | m + 1, s =>
    if s.touchedWhole.1 = target then none else State.pollsOffTarget target m s.touchedWhole.2

/-- READ_TOUCH (R235): the gate, then the pipeline and the registers it commits. -/
def State.readTouchWhole (s : State) : State :=
  let g := s.touchedWhole
  if g.1 then
    let w := g.2.gatherWhole
    { w.registers true with coord := xform w.state.build w.state.calAct w.median }
  else { g.2 with status := { g.2.status with touching := false, complete := false } }

/-- What the host and the history can tell of a state: all of it but the sequencer's own registers. -/
def State.withoutSequencer (s : State) : State :=
  { s with seq := Seq.reset }

end Sys2Proof.Machine
end

