-- ==== Sys2Proof/Machine/Script.lean ====
section
/-! DEFINITION. Host scripts: the pseudo-instructions of R92 as lists of host actions (R91). -/

namespace Sys2Proof.Machine

/-- `CMD <MNEMONIC> [<arg>]`. -/
def scriptCmd (i : Instr) : List HostAction :=
  [.write 0x08#8 (encode i)]

/-- `RUN <MNEMONIC> [<arg>]`: the command, then WAITIDLE. -/
def scriptRun (i : Instr) : List HostAction :=
  scriptCmd i ++ [.waitIdle]

/-- `SETCAL a, b, c, d, e, f`. -/
def scriptSetCal (m : Matrix) : List HostAction :=
  [.write 0x30#8 m.a, .write 0x34#8 m.b, .write 0x38#8 m.c, .write 0x3C#8 m.d, .write 0x40#8 m.e,
    .write 0x44#8 m.f] ++ scriptRun (.setCal 0#8)

/-- `SETPREC n`. -/
def scriptSetPrec (n : Byte) : List HostAction :=
  scriptRun (.setPrec n)

/-- `CLROVR`. -/
def scriptClrOvr : List HostAction :=
  [.write 0x0C#8 0x20#32]

/-- `s` with a host script to perform; no action of another script is left. -/
def State.withScript (s : State) (script : List HostAction) : State :=
  { s with env := { s.env with script := script } }

end Sys2Proof.Machine
end

