-- ==== Sys2Proof/Machine/Timing.lean ====
section
/-! DEFINITION. The cycle counts of R295, as functions of the events of R296. No step reads them: the
model has no time (R295, R298). -/

namespace Sys2Proof.Machine

/-- How many `clk` cycles a stretch of the serial lines lasts. -/
def waveCycles (w : List PinPhase) : Nat :=
  (w.map PinPhase.cycles).sum

/-- The bits on `ts_mosi` at the rising edges of `ts_sclk`, in order. -/
def waveBits (w : List PinPhase) : List Bool :=
  (w.filter PinPhase.sclk).map PinPhase.mosi

/-- The `clk` cycles of one primitive (R295). -/
def eventCycles (b : Params) (mode : Option TransportMode) : Event → Nat
  | .cs _ => 1
  | .pen _ => 1
  | .delay => b.tSettle
  | .xfer _ _ => if mode = some .hw then 8 * b.hwDiv else 16 * b.swHalf
  | .read12 _ => 24 * b.swHalf

/-- The `clk` cycles of a run of primitives. -/
def historyCycles (b : Params) (mode : Option TransportMode) (h : List Event) : Nat :=
  (h.map (eventCycles b mode)).sum

/-- A commit takes one cycle (R295). -/
def commitCycles : Nat := 1

end Sys2Proof.Machine
end

