-- ==== Sys2Proof/Safety.lean ====
section
/-! DEFINITION. What the block never leaves: the invariant of its runs, and the terms statements use. -/

namespace Sys2Proof.Machine

/-- `highByte` and `lowByte` belong to HW mode, `read12` to SW mode (R136). -/
def axisPosOk (mode : Option TransportMode) : AxisPos → Bool
  | .command => true
  | .settle => true
  | .highByte => mode == some .hw
  | .lowByte => mode == some .hw
  | .read12 => mode != some .hw

/-- The positions of `readRaw` in the mode (R137). -/
def rawPosOk (mode : Option TransportMode) : RawPos → Bool
  | .csOn => true
  | .x p => axisPosOk mode p
  | .y p => axisPosOk mode p
  | .csOff => true

/-- The positions of a command that only commits (R86). -/
def commitOnly : Pos → Bool
  | .commit => true
  | .idle | .setCs | .exchange | .axis _ | .raw _ _ | .pen _ => false

/-- The positions of CS_ASSERT and CS_DEASSERT (R110, R111). -/
def csPosOk : Pos → Bool
  | .setCs | .commit => true
  | .idle | .exchange | .axis _ | .raw _ _ | .pen _ => false

/-- The positions of XFER_WRITE and XFER_READ (R112, R113). -/
def exchangePosOk : Pos → Bool
  | .exchange | .commit => true
  | .idle | .setCs | .axis _ | .raw _ _ | .pen _ => false

/-- The positions of READ_AXIS (R138). -/
def readAxisPosOk (mode : Option TransportMode) : Pos → Bool
  | .axis p => axisPosOk mode p
  | .commit => true
  | .idle | .setCs | .exchange | .raw _ _ | .pen _ => false

/-- The positions of a command built of raw-sample transactions for the uses `uses` and presence checks
for the uses `checks` (R137, R154). -/
def sampledPosOk (useIrq : Bool) (mode : Option TransportMode) (uses checks : List Use) : Pos → Bool
  | .raw u p => (uses.contains u || (checks.contains u && !useIrq)) && rawPosOk mode p
  | .pen u => checks.contains u && useIrq
  | .commit => true
  | .idle | .setCs | .exchange | .axis _ => false

/-- The positions of a command's pseudocode. -/
def posOk (useIrq : Bool) (mode : Option TransportMode) : Instr → Pos → Bool
  | .nop _ | .init _ | .setCal _ | .setPrec _ | .transform _ => commitOnly
  | .csAssert _ | .csDeassert _ => csPosOk
  | .xferWrite _ | .xferRead _ => exchangePosOk
  | .readAxis _ => readAxisPosOk mode
  | .readRaw _ => sampledPosOk useIrq mode [.result] []
  | .isTouched _ | .waitTouch _ | .waitRelease _ => sampledPosOk useIrq mode [] [.check]
  | .measure _ => sampledPosOk useIrq mode [.discard, .sample] []
  | .gather _ => sampledPosOk useIrq mode [.discard, .sample] [.check]
  | .readTouch _ => sampledPosOk useIrq mode [.discard, .sample] [.check, .gate]

/-- The commands that run `gather()` (R193, R235). -/
def gathers : Instr → Bool
  | .gather _ | .readTouch _ => true
  | .nop _ | .init _ | .waitTouch _ | .waitRelease _ | .setCal _ | .setPrec _ | .isTouched _
  | .measure _ | .transform _ | .csAssert _ | .csDeassert _ | .xferWrite _ | .xferRead _
  | .readAxis _ | .readRaw _ => false

/-- The commands that run `waitFor` (R157). -/
def waits : Instr → Bool
  | .waitTouch _ | .waitRelease _ => true
  | .nop _ | .init _ | .readTouch _ | .setCal _ | .setPrec _ | .isTouched _ | .measure _ | .gather _
  | .transform _ | .csAssert _ | .csDeassert _ | .xferWrite _ | .xferRead _ | .readAxis _
  | .readRaw _ => false

/-- The commit to come is that of a gather: GATHER's, or READ_TOUCH's once its gate has passed. -/
def commitsGather (gate : Bool) : Instr → Bool
  | .gather _ => true
  | .readTouch _ => gate
  | .nop _ | .init _ | .waitTouch _ | .waitRelease _ | .setCal _ | .setPrec _ | .isTouched _
  | .measure _ | .transform _ | .csAssert _ | .csDeassert _ | .xferWrite _ | .xferRead _
  | .readAxis _ | .readRaw _ => false

/-- The level of `ts_cs_n` while a command stands at a position (R107, R110, R111, R137). -/
def csLevel (held : Bool) (i : Instr) : Pos → Bool
  | .raw _ .csOn => true
  | .raw _ (.x _) | .raw _ (.y _) | .raw _ .csOff => false
  | .commit =>
    match i with
    | .csAssert _ => false
    | .csDeassert _ => true
    | .nop _ | .init _ | .readTouch _ | .waitTouch _ | .waitRelease _ | .setCal _ | .setPrec _
    | .isTouched _ | .measure _ | .gather _ | .transform _ | .xferWrite _ | .xferRead _
    | .readAxis _ | .readRaw _ => !held
  | .idle | .setCs | .exchange | .axis _ | .pen _ => !held

/-- What holds while the command `i` is in flight. -/
structure State.InFlightOk (i : Instr) (s : State) : Prop where
  /-- It stands at a position of its own pseudocode. -/
  position : posOk s.cfg.useIrq s.status.modeEff i s.seq.pos = true
  /-- R253. -/
  initialised : needsInit i = true → s.status.initDone = true
  /-- R254. -/
  busFree : isTransaction s.cfg.useIrq i = true → s.status.csHeld = false
  /-- R232: CFG is locked from an INIT's acceptance on. -/
  locked : s.cfgLocked = (s.status.initDone || locksCfg i)
  /-- R232: an INIT in flight is the first. -/
  firstInit : locksCfg i = true → s.status.initDone = false
  /-- R255. -/
  legalArg : i.wellFormed = true
  /-- R40: ERR is 0 from acceptance to commit. -/
  noError : s.status.err = .none
  /-- Chip select stands as the pseudocode has left it. -/
  chipSelect : s.pins.csN = csLevel s.status.csHeld i s.seq.pos
  /-- R193: the measurement index stays below M_MAX. -/
  measuring : gathers i = true → s.seq.i < s.build.mMax
  /-- R173: at most `j - 1` samples of at most 4095 each are in the sums. -/
  sampling : ∀ p, s.seq.pos = .raw .sample p →
    1 ≤ s.seq.j ∧ s.seq.j ≤ s.prec.toNat ∧
      s.accX.toNat ≤ (s.seq.j - 1) * 4095 ∧ s.accY.toNat ≤ (s.seq.j - 1) * 4095
  /-- R157: a bounded wait that still polls has polls left. -/
  polling : waits i = true → s.seq.pos ≠ .commit → s.seq.limit ≠ 0#32 → s.seq.p < s.seq.limit.toNat
  /-- R194: a gather that commits COMPLETE = 1 has taken M_MAX measurements. -/
  finished : s.seq.pos = .commit → commitsGather s.seq.res.gate i = true →
    s.seq.res.complete = true → s.taken = s.build.mMax

/-- The invariant of the block's runs. -/
structure State.Inv (s : State) : Prop where
  /-- R7. -/
  build : s.build.Legal
  /-- R104: the serial clock and data are low between primitives. -/
  clockIdle : s.pins.sclk = false ∧ s.pins.mosi = false
  /-- R23: the outputs are driven exactly from INIT's commit on. -/
  driven : s.pins.oe = s.status.initDone
  /-- R39: MODE_EFF names an engine exactly from INIT's commit on. -/
  mode : s.status.modeEff.isSome = s.status.initDone
  /-- R257: CS_HELD needs INIT. -/
  held : s.status.csHeld = true → s.status.initDone = true
  /-- R42: 0 is never stored in PREC. -/
  precision : s.prec ≠ 0#8
  /-- R41. -/
  count : s.status.nMeas.toNat ≤ s.build.mMax
  /-- R194: COMPLETE = 1 only with all M_MAX measurements. -/
  complete : s.status.complete = true → s.status.nMeas.toNat = s.build.mMax
  /-- R25, R33, R37, R232: while idle the sequencer is at IDLE, chip select follows CS_HELD, and CFG is
  locked exactly when INIT is done. -/
  idle : s.status.busy = false →
    s.seq.op = none ∧ s.seq.pos = .idle ∧ s.cfgLocked = s.status.initDone ∧
      s.pins.csN = !s.status.csHeld
  /-- R33: BUSY = 1 exactly while a command is in flight. -/
  inFlight : s.status.busy = true →
    s.rstN = true ∧ ∃ i, s.seq.inFlight = some i ∧ s.InFlightOk i
  /-- R280: while `rst_n` is low every element is held at its reset value. -/
  heldReset : s.rstN = false → s = { s.resetBlock with rstN := false, rdata := s.rdata }

/-- The next step is the sequencer's: it has one, and the host has none or does not have the turn. -/
def State.nextIsSequencer (s : State) : Bool :=
  s.sequencerReady && (s.env.script.isEmpty || s.env.takeTurn.1 == .sequencer)

/-- The next step is a reset: the host's step, and its action resets the block (R280). -/
def State.nextIsReset (s : State) : Bool :=
  match s.env.script with
  | .reset :: _ | .setRst false :: _ => !s.nextIsSequencer
  | _ => false

/-- `n` steps of the machine one after another. -/
def steps : Nat → State → Out
  | 0, s => .next s
  | n + 1, s =>
    match step s with
    | .next t => steps n t
    | .fault f => .fault f
    | .refused r => .refused r

/-- How many of the next `n` steps are the sequencer's. -/
def sequencerSteps : Nat → State → Nat
  | 0, _ => 0
  | n + 1, s =>
    match step s with
    | .next t => (if s.nextIsSequencer then 1 else 0) + sequencerSteps n t
    | .fault _ | .refused _ => 0

/-- The registers that only a commit or a reset changes (R71): every result register and the STATUS
fields they come with. -/
structure VisibleRegs where
  coord : Coord
  raw : Sample
  meas : Sample
  med : Sample
  xfer : XferReg
  prec : Byte
  calAct : Matrix
  initDone : Bool
  touching : Bool
  complete : Bool
  csHeld : Bool
  modeEff : Option TransportMode
  nMeas : BitVec 5
  deriving DecidableEq, Repr

/-- The result registers of a state (R71). -/
def State.visible (s : State) : VisibleRegs where
  coord := s.coord
  raw := s.raw
  meas := s.meas
  med := s.med
  xfer := s.xfer
  prec := s.prec
  calAct := s.calAct
  initDone := s.status.initDone
  touching := s.status.touching
  complete := s.status.complete
  csHeld := s.status.csHeld
  modeEff := s.status.modeEff
  nMeas := s.status.nMeas

/-- The raw-sample transactions in a history: its `CS(1)` events (R296). -/
def transactions (h : List Event) : Nat :=
  h.countP fun e => e == .cs true

/-- The PenSamples in a history. -/
def penSamples (h : List Event) : Nat :=
  h.countP fun e => match e with
    | .pen _ => true
    | .cs _ | .xfer _ _ | .read12 _ | .delay => false

/-- The transport calls in a history: its XFER and READ12 events (R296). -/
def transportCalls (h : List Event) : Nat :=
  h.countP fun e => match e with
    | .xfer _ _ | .read12 _ => true
    | .cs _ | .delay | .pen _ => false

/-- The 12-bit software reads in a history: its READ12 events. -/
def read12Calls (h : List Event) : Nat :=
  h.countP fun e => match e with
    | .read12 _ => true
    | .cs _ | .xfer _ _ | .delay | .pen _ => false

/-- The command `i` is in flight and stands at the position `p`. -/
structure State.Doing (i : Instr) (p : Pos) (s : State) : Prop where
  busy : s.status.busy = true
  command : s.seq.inFlight = some i
  pos : s.seq.pos = p

/-- `start(op)` of R84: where the sequencer stands right after the acceptance of `i`. -/
def startPos (i : Instr) (s : State) : Pos :=
  match i with
  | .nop _ | .init _ | .setCal _ | .setPrec _ | .transform _ => .commit
  | .csAssert _ => if s.status.csHeld then .commit else .setCs
  | .csDeassert _ => if s.status.csHeld then .setCs else .commit
  | .xferWrite _ | .xferRead _ => .exchange
  | .readAxis _ => .axis .command
  | .readRaw _ => .raw .result .csOn
  | .isTouched _ | .waitTouch _ | .waitRelease _ => s.touchedPos .check
  | .measure _ | .gather _ => .raw .discard .csOn
  | .readTouch _ => s.touchedPos .gate

/-- `n` meanings of the command `i` one after another: its acceptance, then its sequencer steps. -/
def execs (i : Instr) : Nat → State → Out
  | 0, s => .next s
  | n + 1, s =>
    match exec i s with
    | .next t => execs i n t
    | .fault f => .fault f
    | .refused r => .refused r

/-- ERR is cleared, as by an acceptance (R40, R84). -/
def State.noError (s : State) : State :=
  { s with status := { s.status with err := .none } }

/-- The sequencer's registers once the command with the argument `arg` has ended: IDLE, the argument
kept, the loop indices at 0 (entry 13). -/
def Seq.ended (arg : Byte) (q : Seq) : Seq :=
  { q with op := none, arg := arg, pos := .idle, i := 0, j := 0, p := 0 }

/-- `u` is `v` in every register, input and event, and its sequencer is IDLE. -/
structure State.EndsAs (u v : State) : Prop where
  same : u.withoutSequencer = v.withoutSequencer
  idle : u.seq.op = none ∧ u.seq.pos = .idle

/-- The bits of a value in the order they are clocked (R67). -/
def msbFirst {n : Nat} (v : BitVec n) : List Bool :=
  (List.range n).map fun k => v.getLsbD (n - 1 - k)

/-- The steps of one `readRaw` (R140): ten in HW mode, eight in SW mode. -/
def rawSteps (mode : Option TransportMode) : Nat :=
  if mode = some .hw then 10 else 8

/-- The steps of one `readAxis` (R136): four in HW mode, three in SW mode. -/
def axisSteps (mode : Option TransportMode) : Nat :=
  if mode = some .hw then 4 else 3

/-- The steps of one `touched()` (R154): one PenSample, or one raw-sample transaction. -/
def checkSteps (useIrq : Bool) (mode : Option TransportMode) : Nat :=
  if useIrq then 1 else rawSteps mode

/-- The steps of one `measure()` (R178). -/
def measureSteps (s : State) : Nat :=
  (1 + s.prec.toNat) * rawSteps s.status.modeEff

/-- The steps of one presence check in the block as it is configured. -/
def State.checkSteps (s : State) : Nat :=
  Machine.checkSteps s.cfg.useIrq s.status.modeEff

/-- The most primitives of the command `i` (R237, R178, R197), a wait's bound being the latched one: its
steps but the commit. -/
def primitiveBound (i : Instr) (s : State) : Nat :=
  match i with
  | .nop _ | .init _ | .setCal _ | .setPrec _ | .transform _ => 0
  | .csAssert _ | .csDeassert _ | .xferWrite _ | .xferRead _ => 1
  | .readAxis _ => axisSteps s.status.modeEff
  | .readRaw _ => rawSteps s.status.modeEff
  | .isTouched _ => s.checkSteps
  | .waitTouch _ | .waitRelease _ => s.seq.limit.toNat * s.checkSteps
  | .measure _ => measureSteps s
  | .gather _ => s.build.mMax * (measureSteps s + s.checkSteps)
  | .readTouch _ => s.checkSteps + s.build.mMax * (measureSteps s + s.checkSteps)

/-- The value of a pattern of binary32 whose exponent is not 255 (R10): IEEE 754's formula. -/
def binary32Value (v : Word) : Rat :=
  (if v.getLsbD 31 then -1 else 1) *
    (if v.extractLsb' 23 8 = 0#8 then ((v.extractLsb' 0 23).toNat : Rat) / 2 ^ 149
    else (1 + ((v.extractLsb' 0 23).toNat : Rat) / 2 ^ 23) * 2 ^ (v.extractLsb' 23 8).toNat / 2 ^ 127)

/-- The number that `n` units of 2^-149 with the sign `neg` are. -/
def unitsValue (neg : Bool) (n : Nat) : Rat :=
  (if neg then -1 else 1) * (n : Rat) / 2 ^ 149

/-- `z` is `fl` of the number `x` (R10), with the sign `neg`: `fl` of any fraction of units that the
magnitude of `x` is. -/
def IsFl (neg : Bool) (x : Rat) (z : Fp) : Prop :=
  ∀ num den : Nat, 0 < den → (num : Rat) = |x| * 2 ^ 149 * den → z = fl neg num den

end Sys2Proof.Machine
end

