-- ==== Sys2Proof/Certificates/Slice0/Obligations.lean ====
section
/-! DEFINITION. The statements for the provers. Each docstring names the rules of spec/ it formalises;
a clause that rests on a choice of the model names its log entry. -/

open Sys2Proof Sys2Proof.Machine

/-! ## Encoding (30_encoding.md) -/

/-- R80, R82, R90: OP and ARG survive encoding and decoding whatever RSVD is, and a word that decodes
to a command is that command's word. -/
def Obligations.DecodeInvertsEncode : Prop :=
  (∀ (rsvd : BitVec 16) (i : Instr), decode (encodeWith rsvd i) = .ok i) ∧
  ∀ (w : Word) (i : Instr), decode w = .ok i → w = encodeWith (w.extractLsb' 16 16) i

/-- R83, R90: a word is illegal exactly when its OP is 0x07, 0x0C–0x0F or 0x16–0xFF; every other word
decodes to one command, with that OP and the word's ARG. -/
def Obligations.ReservedOpcodesExactly : Prop :=
  ∀ w : Word,
    (decode w = .error (.reservedOp (w.extractLsb' 0 8)) ↔
      (w.extractLsb' 0 8).toNat = 0x07 ∨
      (0x0C ≤ (w.extractLsb' 0 8).toNat ∧ (w.extractLsb' 0 8).toNat ≤ 0x0F) ∨
      0x16 ≤ (w.extractLsb' 0 8).toNat) ∧
    (decode w ≠ .error (.reservedOp (w.extractLsb' 0 8)) →
      ∃ i, decode w = .ok i ∧ i.opcode = w.extractLsb' 0 8 ∧ i.arg = w.extractLsb' 8 8)

/-- R81, R82, R93: words written out from the encoding, their commands and their spelling. -/
def Obligations.SpecWordsDecode : Prop :=
  decode 0x00000000#32 = .ok (.nop 0#8) ∧
  decode 0x00000002#32 = .ok (.readTouch 0#8) ∧
  decode 0x0000FF02#32 = .ok (.readTouch 0xFF#8) ∧
  decode 0xFFFF0002#32 = .ok (.readTouch 0#8) ∧
  decode 0x00000506#32 = .ok (.setPrec 5#8) ∧
  decode 0x0000A512#32 = .ok (.xferWrite 0xA5#8) ∧
  decode 0x0000D014#32 = .ok (.readAxis 0xD0#8) ∧
  decode 0x00000007#32 = .error (.reservedOp 7#8) ∧
  disassemble 0x0000A512#32 = "XFER_WRITE 0xA5".toList ∧
  disassemble 0x00000506#32 = "SET_PREC 5".toList ∧
  disassemble 0x00000007#32 = ".illegal 0x00000007".toList

/-! ## Steps and acceptance (R6, R84, R85, R250–R259) -/

/-- R84: out of reset and idle, a CMD write whose word decodes to `i` is one step that runs `i`. R6, R25:
while a command is in flight out of reset, each step that is the sequencer's runs it; every step is
when the host has no action left. Whose step it is otherwise is an input (entry 4). -/
def Obligations.StepRunsTheCommand : Prop :=
  (∀ (s : State) (addr : Byte) (w : Word) (rest : List HostAction) (i : Instr),
    s.env.script = .write addr w :: rest → wordAddr addr = 0x08 → s.rstN = true →
    s.status.busy = false → decode w = .ok i →
    step s = exec i { s with env := { s.env with script := rest } }) ∧
  (∀ (s : State) (i : Instr), s.status.busy = true → s.rstN = true → s.seq.inFlight = some i →
    (s.env.script = [] → step s = exec i s) ∧
    (∀ e, s.env.script ≠ [] → s.env.takeTurn = (.sequencer, e) → step s = exec i { s with env := e }))

/-- R298, R6: weak fairness of the sequencer: from every state with BUSY = 1 out of reset, host steps
alone lead to a state whose next step is the sequencer's, or is a reset; a host that waits in WAITIDLE
is no exception. How many host steps come before is free (entry 4). -/
def Obligations.SequencerIsNotStarved : Prop :=
  ∀ s : State, s.status.busy = true → s.rstN = true →
    ∃ n t, steps n s = .next t ∧ t.status.busy = true ∧
      (t.nextIsSequencer = true ∨ t.nextIsReset = true) ∧
      ∀ m u, m < n → steps m s = .next u → u.nextIsSequencer = false

/-- R298: with the fairness that the model's turns have (entry 4), every command in flight other than an
unbounded wait ends after finitely many steps, whatever the host does, and the sequencer's steps among
them are at most its primitive count (R237, R178, R197, R140) and the commit. -/
def Obligations.CommandsEnd : Prop :=
  ∀ (s : State) (i : Instr), s.Inv → s.status.busy = true → s.seq.inFlight = some i →
    (waits i = true → s.seq.limit ≠ 0#32) →
    ∃ n t, steps n s = .next t ∧ t.status.busy = false ∧
      (∀ m u, m < n → steps m s = .next u → u.status.busy = true) ∧
      sequencerSteps n s ≤ primitiveBound i s + 1

/-- R259, R85: a CMD write while BUSY = 1 sets CMD_OVR and changes nothing else; in a run's states ERR
reads 0 then. -/
def Obligations.BusyCmdWriteSetsOnlyOverrun : Prop :=
  ∀ (s : State) (e : Env) (addr : Byte) (w : Word) (rest : List HostAction),
    s.env.script = .write addr w :: rest → wordAddr addr = 0x08 → s.rstN = true →
    s.status.busy = true → s.env.takeTurn = (.host, e) →
    step s = .next { s with
      env := { e with script := rest }, status := { s.status with cmdOvr := true } } ∧
    (s.Inv → s.status.err = .none)

/-- R252–R256, in R257's order: the code that a CMD write meets while idle. With a code other than
ERR_NONE the step changes ERR alone; with ERR_NONE it sets BUSY. -/
def Obligations.CmdWriteMeetsTheChecks : Prop :=
  ∀ (s : State) (addr : Byte) (w : Word) (rest : List HostAction),
    s.env.script = .write addr w :: rest → wordAddr addr = 0x08 → s.rstN = true →
    s.status.busy = false →
    ∀ code : ErrCode,
    (code =
      if (w.extractLsb' 0 8).toNat = 0x07 ∨
          (0x0C ≤ (w.extractLsb' 0 8).toNat ∧ (w.extractLsb' 0 8).toNat ≤ 0x0F) ∨
          0x16 ≤ (w.extractLsb' 0 8).toNat then .illegalOp
      else if w.extractLsb' 0 8 = 0x01#8 ∧ s.cfgLocked = true then .reinit
      else if w.extractLsb' 0 8 ∈
            [0x02#8, 0x03#8, 0x04#8, 0x08#8, 0x09#8, 0x0A#8, 0x10#8, 0x11#8, 0x12#8, 0x13#8, 0x14#8,
              0x15#8] ∧ s.status.initDone = false then .notInit
      else if (w.extractLsb' 0 8 ∈ [0x02#8, 0x09#8, 0x0A#8, 0x15#8] ∨
            (w.extractLsb' 0 8 ∈ [0x03#8, 0x04#8, 0x08#8] ∧ s.cfg.useIrq = false)) ∧
          s.status.csHeld = true then .busHeld
      else if w.extractLsb' 0 8 = 0x06#8 ∧ w.extractLsb' 8 8 = 0#8 then .badArg
      else .none) →
    (code ≠ .none → step s = .next { s with
      env := { s.env with script := rest }, status := { s.status with err := code } }) ∧
    (code = .none → ∃ t, step s = .next t ∧ t.status.busy = true ∧ t.status.err = .none)

/-- R84: what the acceptance of any command writes: ERR, BUSY, the sequencer, the latched operands, and
`cfg_locked` for INIT. That the loop indices start at 0 (entry 13), and that the start position is chosen from CS_HELD and USE_IRQ in this step (entry 7; R84 says `start(op)`),
are the model's choices. -/
def Obligations.AcceptanceLatchesOperands : Prop :=
  ∀ (i : Instr) (s : State), s.status.busy = false → check i s = .none →
    exec i s = .next { s with
      status := { s.status with err := .none, busy := true }
      cfgLocked := s.cfgLocked || i.opcode == 0x01#8
      seq := { s.seq with
        op := some i.opcode, arg := i.arg, pos := startPos i s, i := 0, j := 0, p := 0
        tin := if i.opcode = 0x0B#8 then s.tin else s.seq.tin
        limit := if i.opcode = 0x03#8 ∨ i.opcode = 0x04#8 then s.waitLimit else s.seq.limit
        cfg := if i.opcode = 0x01#8 then s.cfg else s.seq.cfg } }

/-! ## Each command from acceptance to commit -/

/-- R231: NOP takes its acceptance and its commit, and leaves ERR = 0 and every register as it
was; the indices and the latched ARG at IDLE are the model's choice (entry 13). -/
def Obligations.NopOnlyClearsErr : Prop :=
  ∀ (arg : Byte) (s : State), s.status.busy = false →
    ∃ t, exec (.nop arg) s = .next t ∧ t.status.busy = true ∧
      exec (.nop arg) t = .next { s.noError with seq := s.seq.ended arg }

/-- R232, R233: INIT locks CFG in its acceptance, and its commit resolves the engine, drives the lines to
their idle levels and sets INIT_DONE; no other register changes; the indices, ARG
and `seq.cfg` at IDLE are the model's choice (entry 13). -/
def Obligations.InitSelectsTheEngine : Prop :=
  ∀ (arg : Byte) (s : State), s.status.busy = false → s.cfgLocked = false →
    ∃ t, exec (.init arg) s = .next t ∧ t.status.busy = true ∧ t.cfgLocked = true ∧
      exec (.init arg) t = .next { s with
        cfgLocked := true
        status := { s.status with
          err := .none
          initDone := true
          modeEff := some (match s.cfg.mode with
            | .hardware => .hw
            | .software => .sw
            | .auto => s.build.autoMode) }
        pins := { csN := true, sclk := false, mosi := false, oe := true }
        seq := { s.seq.ended arg with cfg := s.cfg } }

/-- R211: SET_CAL copies the six staged coefficients in its commit and changes no other register; the
indices and ARG at IDLE are the model's choice (entry 13). -/
def Obligations.SetCalCopiesTheStagedMatrix : Prop :=
  ∀ (arg : Byte) (s : State), s.status.busy = false →
    ∃ t, exec (.setCal arg) s = .next t ∧ t.status.busy = true ∧
      exec (.setCal arg) t = .next { s.noError with calAct := s.cal, seq := s.seq.ended arg }

/-- R171, R255: SET_PREC n writes PREC = n; n = 0 is refused with ERR_BAD_ARG and PREC stays. The
indices and ARG at IDLE are the model's choice (entry 13). -/
def Obligations.SetPrecWritesPrec : Prop :=
  ∀ (n : Byte) (s : State), s.status.busy = false →
    (n ≠ 0#8 → ∃ t, exec (.setPrec n) s = .next t ∧ t.status.busy = true ∧
      exec (.setPrec n) t = .next { s.noError with prec := n, seq := s.seq.ended n }) ∧
    (n = 0#8 → exec (.setPrec n) s = .next { s with status := { s.status with err := .badArg } })

/-- R217: TRANSFORM writes POS from the latched TIN and the active matrix, and no other register;
the indices, ARG and `seq.tin` at IDLE are the model's choice (entry 13). -/
def Obligations.TransformWritesPos : Prop :=
  ∀ (arg : Byte) (s : State), s.status.busy = false →
    ∃ t, exec (.transform arg) s = .next t ∧ t.status.busy = true ∧
      exec (.transform arg) t = .next { s.noError with
        coord := xform s.build s.calAct s.tin
        seq := { s.seq.ended arg with tin := s.tin } }

/-- R110, R111: CS_ASSERT drives `ts_cs_n` low with one CS(1) event and sets CS_HELD, CS_DEASSERT drives
it high with one CS(0) event and clears CS_HELD; where CS_HELD is so already each only commits. The
indices and ARG at IDLE are the model's choice (entry 13). -/
def Obligations.HostFramesATransaction : Prop :=
  ∀ (arg : Byte) (s : State), s.status.busy = false → s.status.initDone = true →
    (∃ t, exec (.csAssert arg) s = .next t ∧ t.status.busy = true ∧
      (s.status.csHeld = false → execs (.csAssert arg) 2 t = .next { s with
        status := { s.status with err := .none, csHeld := true }
        pins := { s.pins with csN := false }
        hist := s.hist ++ [.cs true]
        seq := s.seq.ended arg }) ∧
      (s.status.csHeld = true →
        exec (.csAssert arg) t = .next { s.noError with seq := s.seq.ended arg })) ∧
    (∃ t, exec (.csDeassert arg) s = .next t ∧ t.status.busy = true ∧
      (s.status.csHeld = true → execs (.csDeassert arg) 2 t = .next { s with
        status := { s.status with err := .none, csHeld := false }
        pins := { s.pins with csN := true }
        hist := s.hist ++ [.cs false]
        seq := s.seq.ended arg }) ∧
      (s.status.csHeld = false →
        exec (.csDeassert arg) t = .next { s.noError with seq := s.seq.ended arg }))

/-- R112, R113, R114: whatever CS_HELD is, XFER_WRITE sends its argument in one exchange and writes no
register; XFER_READ sends 0x00 in one exchange and writes the byte received to XFER.RXBYTE alone.
The indices and ARG at IDLE are the model's choice (entry 13). -/
def Obligations.TransportCommandsExchangeOneByte : Prop :=
  ∀ (b : Byte) (s : State), s.status.busy = false → s.status.initDone = true →
    (∃ t, exec (.xferWrite b) s = .next t ∧ t.status.busy = true ∧
      execs (.xferWrite b) 2 t = .next { (s.noError.busXfer b).2 with seq := s.seq.ended b } ∧
      (s.noError.busXfer b).2.hist = s.hist ++ [.xfer b (s.exchange b).rx]) ∧
    (∃ t u, exec (.xferRead b) s = .next t ∧ t.status.busy = true ∧
      execs (.xferRead b) 2 t = .next u ∧
      u.EndsAs { (s.noError.busXfer 0x00#8).2 with
        xfer := { s.xfer with rxByte := (s.exchange 0x00#8).rx } } ∧
      u.hist = s.hist ++ [.xfer 0x00#8 (s.exchange 0x00#8).rx])

/-- R138: READ_AXIS is `readAxis` with its argument, no chip-select action, and writes the value to
XFER.AXIS alone. -/
def Obligations.ReadAxisRunsItsPseudocode : Prop :=
  ∀ (c : Byte) (s : State), s.status.busy = false → s.status.initDone = true →
    ∃ t u, exec (.readAxis c) s = .next t ∧ t.status.busy = true ∧
      execs (.readAxis c) (axisSteps s.status.modeEff + 1) t = .next u ∧
      u.EndsAs { (s.noError.readAxisWhole c).2 with
        xfer := { s.xfer with axis := (s.noError.readAxisWhole c).1 } } ∧
      u.pins.csN = s.pins.csN

/-- R139: READ_RAW is one raw-sample transaction, stored in RAW as read. -/
def Obligations.ReadRawRunsItsPseudocode : Prop :=
  ∀ (arg : Byte) (s : State), s.status.busy = false → s.status.initDone = true →
    s.status.csHeld = false →
    ∃ t u, exec (.readRaw arg) s = .next t ∧ t.status.busy = true ∧
      execs (.readRaw arg) (rawSteps s.status.modeEff + 1) t = .next u ∧
      u.EndsAs { s.noError.readRawWhole.2 with raw := s.noError.readRawWhole.1 }

/-- R156: IS_TOUCHED writes TOUCHING from one presence check, and RAW exactly when USE_IRQ = 0. -/
def Obligations.IsTouchedRunsItsPseudocode : Prop :=
  ∀ (arg : Byte) (s : State), s.status.busy = false → s.status.initDone = true →
    (s.cfg.useIrq = false → s.status.csHeld = false) →
    ∃ t u, exec (.isTouched arg) s = .next t ∧ t.status.busy = true ∧
      execs (.isTouched arg) (checkSteps s.cfg.useIrq s.status.modeEff + 1) t = .next u ∧
      u.EndsAs { s.noError.touchedWhole.2 with
        status := { s.status with err := .none, touching := s.noError.touchedWhole.1 }
        raw := if s.cfg.useIrq then s.raw else s.noError.readRawWhole.1 }

/-- R177: MEASURE runs `measure()` in `(1 + PREC.N)` raw-sample transactions and writes MEAS. -/
def Obligations.MeasureRunsItsPseudocode : Prop :=
  ∀ (arg : Byte) (s : State), s.status.busy = false → s.status.initDone = true →
    s.status.csHeld = false → s.prec ≠ 0#8 →
    ∃ t u, exec (.measure arg) s = .next t ∧ t.status.busy = true ∧
      execs (.measure arg) ((1 + s.prec.toNat) * rawSteps s.status.modeEff + 1) t = .next u ∧
      u.EndsAs { s.noError.measureWhole.2 with meas := s.noError.measureWhole.1 }

/-- R195: GATHER runs `gather()` and writes MED, COMPLETE, TOUCHING and NMEAS in its commit. -/
def Obligations.GatherRunsItsPseudocode : Prop :=
  ∀ (arg : Byte) (s : State), s.status.busy = false → s.status.initDone = true →
    s.status.csHeld = false → s.prec ≠ 0#8 →
    ∃ t u, exec (.gather arg) s = .next t ∧ t.status.busy = true ∧
      execs (.gather arg)
        (s.noError.gatherWhole.k * ((1 + s.prec.toNat) * rawSteps s.status.modeEff +
          checkSteps s.cfg.useIrq s.status.modeEff) + 1) t = .next u ∧
      u.EndsAs (s.noError.gatherWhole.registers s.noError.gatherWhole.complete)

/-- R235, R236: READ_TOUCH runs the gate and then the whole pipeline, or ends after the gate. -/
def Obligations.ReadTouchRunsItsPseudocode : Prop :=
  ∀ (arg : Byte) (s : State), s.status.busy = false → s.status.initDone = true →
    s.status.csHeld = false → s.prec ≠ 0#8 →
    ∃ t n u, exec (.readTouch arg) s = .next t ∧ t.status.busy = true ∧
      execs (.readTouch arg) n t = .next u ∧ u.EndsAs s.noError.readTouchWhole ∧
      n = checkSteps s.cfg.useIrq s.status.modeEff + 1 +
        (if s.noError.touchedWhole.1 then
          s.noError.touchedWhole.2.gatherWhole.k *
            ((1 + s.prec.toNat) * rawSteps s.status.modeEff +
              checkSteps s.cfg.useIrq s.status.modeEff)
        else 0)

/-- R157, R158, R160: a wait that its pseudocode ends, ends so, with TOUCHING the last poll's result and
ERR_TIMEOUT exactly when the bound ran out. -/
def Obligations.WaitsRunTheirPseudocode : Prop :=
  ∀ (i : Instr) (arg : Byte) (target : Bool) (s : State),
    (i = .waitTouch arg ∧ target = true ∨ i = .waitRelease arg ∧ target = false) →
    s.status.busy = false → s.status.initDone = true →
    (s.cfg.useIrq = false → s.status.csHeld = false) →
    ∃ t, exec i s = .next t ∧ t.status.busy = true ∧
      ∀ fuel r, State.waitWhole target s.waitLimit.toNat fuel 0 s.noError = some r →
        ∃ n u, execs i n t = .next u ∧
          u.EndsAs { r.2.2 with
            status := { s.status with
              err := if r.2.1 then .timeout else .none
              touching := r.1 } }

/-- R159, R258: a bounded wait ends within its bound, with its target met and ERR = 0, or with the last
poll off target and ERR_TIMEOUT. -/
def Obligations.BoundedWaitEnds : Prop :=
  ∀ (i : Instr) (arg : Byte) (target : Bool) (s : State),
    (i = .waitTouch arg ∧ target = true ∨ i = .waitRelease arg ∧ target = false) →
    s.status.busy = false → s.status.initDone = true →
    (s.cfg.useIrq = false → s.status.csHeld = false) → s.waitLimit ≠ 0#32 →
    ∃ t n u, exec i s = .next t ∧ execs i n t = .next u ∧
      n ≤ s.waitLimit.toNat * checkSteps s.cfg.useIrq s.status.modeEff + 1 ∧
      u.status.busy = false ∧
      ((u.status.err = .none ∧ u.status.touching = target) ∨
        (u.status.err = .timeout ∧ u.status.touching = !target))

/-- R161: with WAIT_LIMIT = 0 a wait whose `m` polls, of the pen line or of raw-sample transactions, are
all off target has taken those polls and stands before the next; it changes TOUCHING and ERR no more
than they do. A pen line that answers off target `m` times makes such polls. -/
def Obligations.UnboundedWaitPollsOn : Prop :=
  ∀ (i : Instr) (arg : Byte) (target : Bool) (m : Nat) (s : State),
    (i = .waitTouch arg ∧ target = true ∨ i = .waitRelease arg ∧ target = false) →
    s.status.busy = false → s.status.initDone = true →
    (s.cfg.useIrq = false → s.status.csHeld = false) → s.waitLimit = 0#32 →
    (∀ r, State.pollsOffTarget target m s.noError = some r →
      ∃ t u, exec i s = .next t ∧
        execs i (m * checkSteps s.cfg.useIrq s.status.modeEff) t = .next u ∧
        u.Doing i (s.touchedPos .check) ∧
        u.withoutSequencer =
          { r with status := { s.status with err := .none, busy := true } }.withoutSequencer ∧
        (s.cfg.useIrq = false → ∃ ev, u.hist = s.hist ++ ev ∧ transactions ev = m ∧
          penSamples ev = 0 ∧ ev.length = m * rawSteps s.status.modeEff)) ∧
    (∀ later, s.cfg.useIrq = true → s.env.pen = List.replicate m target ++ later →
      ∃ r, State.pollsOffTarget target m s.noError = some r ∧
        r.hist = s.hist ++ List.replicate m (.pen target) ∧ r.env.pen = later)

/-! ## Frames -/

/-- R71, R57: a sequencer step that does not commit changes only the serial lines but `ts_oe`, the
sequencer's position and partial results, the accumulators, `mvals` and MBUF, the engines, the flops,
the events and the inputs taken. -/
def Obligations.StepsBeforeCommitFrame : Prop :=
  ∀ (i : Instr) (s t : State), s.status.busy = true → s.seq.inFlight = some i →
    exec i s = .next t → t.status.busy = true →
    t = { s with
      pins := { t.pins with oe := s.pins.oe }
      seq := { t.seq with
        op := s.seq.op, arg := s.seq.arg, limit := s.seq.limit, tin := s.seq.tin, cfg := s.seq.cfg }
      accX := t.accX, accY := t.accY, mvals := t.mvals, mbuf := t.mbuf
      engines := t.engines, sync := t.sync, hist := t.hist
      env := { t.env with
        script := s.env.script, turns := s.env.turns, hostMoves := s.env.hostMoves
        pins := s.env.pins, freshPins := s.env.freshPins } }

/-- R57, its table: which registers each command can write, in any of its steps. -/
def Obligations.CommandsWriteOnlyTheirRegisters : Prop :=
  ∀ (i : Instr) (s t : State), exec i s = .next t →
    (i.opcode ≠ 0x01#8 → t.cfgLocked = s.cfgLocked ∧ t.status.initDone = s.status.initDone ∧
      t.status.modeEff = s.status.modeEff ∧ t.pins.oe = s.pins.oe) ∧
    (i.opcode ∉ [0x02#8, 0x03#8, 0x04#8, 0x08#8, 0x0A#8] →
      t.status.touching = s.status.touching) ∧
    (i.opcode ∉ [0x02#8, 0x0A#8] → t.status.complete = s.status.complete ∧
      t.status.nMeas = s.status.nMeas ∧ t.med = s.med ∧ t.mbuf = s.mbuf) ∧
    (i.opcode ∉ [0x02#8, 0x0B#8] → t.coord = s.coord) ∧
    (i.opcode ≠ 0x05#8 → t.calAct = s.calAct) ∧
    (i.opcode ≠ 0x06#8 → t.prec = s.prec) ∧
    (i.opcode ≠ 0x15#8 → (i.opcode = 0x08#8 → s.cfg.useIrq = true) → t.raw = s.raw) ∧
    (i.opcode ≠ 0x09#8 → t.meas = s.meas) ∧
    (i.opcode ∉ [0x10#8, 0x11#8] → t.status.csHeld = s.status.csHeld) ∧
    (i.opcode ≠ 0x13#8 → t.xfer.rxByte = s.xfer.rxByte) ∧
    (i.opcode ≠ 0x14#8 → t.xfer.axis = s.xfer.axis) ∧
    t.cfg = s.cfg ∧ t.waitLimit = s.waitLimit ∧ t.tin = s.tin ∧ t.cal = s.cal ∧
    t.build = s.build ∧ t.rstN = s.rstN ∧ t.rdata = s.rdata ∧ t.reads = s.reads ∧
    t.env.script = s.env.script

/-! ## The serial engines (40_transport.md) -/

/-- R105, R102, R103, R295: for the same bits the two engines return the same byte, leave the same
inputs, and put the same bits on `ts_mosi`, most significant first, in 8 · HW_DIV and 16 · SW_HALF
cycles. -/
def Obligations.EnginesAreEquivalent : Prop :=
  ∀ (div half : Nat) (o : Byte) (e : Env),
    (swExchange half o e).rx = (hwExchange div o e).rx ∧
    (swExchange half o e).env = (hwExchange div o e).env ∧
    waveBits (hwExchange div o e).wave = msbFirst o ∧
    waveBits (swExchange half o e).wave = msbFirst o ∧
    (div % 2 = 0 → waveCycles (hwExchange div o e).wave = 8 * div) ∧
    waveCycles (swExchange half o e).wave = 16 * half

/-- R67, R102, R106, R132: the bits of an exchange and of a 12-bit read arrive most significant first,
and those bits alone are taken. -/
def Obligations.BitsArriveMostSignificantFirst : Prop :=
  ∀ (div half : Nat) (o : Byte) (bits later : List Bool) (e : Env), e.miso = bits ++ later →
    (bits.length = 8 → msbFirst (hwExchange div o e).rx = bits ∧
      (hwExchange div o e).env = { e with miso := later }) ∧
    (bits.length = 12 → msbFirst (swRead12 half e).rx = bits ∧
      (swRead12 half e).env = { e with miso := later } ∧
      waveBits (swRead12 half e).wave = List.replicate 12 false ∧
      waveCycles (swRead12 half e).wave = 24 * half)

/-- R107: in a step that is not a reset, `ts_cs_n` changes only in a SetCS step, with its event, or
in INIT's commit. -/
def Obligations.OnlySetCsDrivesChipSelect : Prop :=
  ∀ s t : State, step s = .next t → s.nextIsReset = false →
    (t.pins.csN ≠ s.pins.csN →
      (∃ a, t.hist = s.hist ++ [.cs a]) ∨ ∃ arg, s.seq.inFlight = some (.init arg)) ∧
    (∀ a, t.hist = s.hist ++ [.cs a] → t.pins.csN = !a)

/-! ## The sample decoder (41_sample_decoder.md) -/

/-- R131: the decoded value is `b1[6:0]` over `b2[7:3]`; W[15] and W[2:0] do not matter. -/
def Obligations.DecodedBits : Prop :=
  ∀ b1 b2 : Byte,
    decode16 b1 b2 = b1.extractLsb' 0 7 ++ b2.extractLsb' 3 5 ∧
    (∀ (top : Bool) (low : BitVec 3),
      decode16 (BitVec.ofBool top ++ b1.extractLsb' 0 7) (b2.extractLsb' 3 5 ++ low) =
        decode16 b1 b2) ∧
    (decode16 b1 b2).toNat ≤ 4095

/-- R135: when the touch controller answers the conversion value `V` (as W[14:3] in HW mode, as the 12
bits in SW mode), `readAxis` returns `V` in both modes. -/
def Obligations.ReadPathsAgree : Prop :=
  ∀ (c : Byte) (v : U12) (echo later : List Bool) (top : Bool) (l2 l1 l0 : Bool) (s : State),
    echo.length = 8 →
    (s.status.modeEff = some .hw →
      s.env.miso = echo ++ (top :: msbFirst v ++ [l2, l1, l0]) ++ later →
      (s.readAxisWhole c).1 = v) ∧
    (s.status.modeEff = some .sw → s.env.miso = echo ++ msbFirst v ++ later →
      (s.readAxisWhole c).1 = v)

/-- R137, R140, R133, R134: the events of one raw-sample transaction and the sample they give. -/
def Obligations.RawTransactionEvents : Prop :=
  ∀ s : State,
    (s.status.modeEff = some .hw → ∃ e1 b1 b2 e2 b3 b4 : Byte,
      s.readRawWhole.2.hist = s.hist ++ [.cs true, .xfer s.build.cmdX e1, .delay, .xfer 0#8 b1,
        .xfer 0#8 b2, .xfer s.build.cmdY e2, .delay, .xfer 0#8 b3, .xfer 0#8 b4, .cs false] ∧
      s.readRawWhole.1 = ⟨decode16 b1 b2, decode16 b3 b4⟩) ∧
    (s.status.modeEff = some .sw → ∃ (e1 e2 : Byte) (x y : U12),
      s.readRawWhole.2.hist = s.hist ++ [.cs true, .xfer s.build.cmdX e1, .delay, .read12 x,
        .xfer s.build.cmdY e2, .delay, .read12 y, .cs false] ∧
      s.readRawWhole.1 = ⟨x, y⟩)

/-! ## The presence comparator (42_presence.md) -/

/-- R150, R151, R153: a value is valid strictly between the rails, a sample when both axes are. -/
def Obligations.ValidExactlyBetweenTheRails : Prop :=
  (∀ v : U12, isSampleValid v = true ↔ v ≠ 0#12 ∧ v ≠ 4095#12) ∧
  ∀ v : Sample, v.valid = true ↔ v.x ≠ 0#12 ∧ v.x ≠ 4095#12 ∧ v.y ≠ 0#12 ∧ v.y ≠ 4095#12

/-! ## The accumulator (43_accumulator.md) -/

/-- R173, R175, R176, R179: for PREC.N samples, rails among them, no sum wraps, each axis is the truncated
mean, and it lies between the smallest and the largest sample. -/
def Obligations.MeanIsExact : Prop :=
  ∀ (vs : List Sample) (s : State), vs ≠ [] → vs.length = s.prec.toNat →
    ∀ t, t = vs.foldl (fun t v => t.accumulate v) { s with accX := 0#20, accY := 0#20 } →
      t.accX.toNat = (vs.map fun v => v.x.toNat).sum ∧
      t.accY.toNat = (vs.map fun v => v.y.toNat).sum ∧
      t.mean.x.toNat = (vs.map fun v => v.x.toNat).sum / vs.length ∧
      t.mean.y.toNat = (vs.map fun v => v.y.toNat).sum / vs.length ∧
      (∃ v ∈ vs, v.x.toNat ≤ t.mean.x.toNat) ∧ (∃ v ∈ vs, t.mean.x.toNat ≤ v.x.toNat) ∧
      (∃ v ∈ vs, v.y.toNat ≤ t.mean.y.toNat) ∧ (∃ v ∈ vs, t.mean.y.toNat ≤ v.y.toNat)

/-- R178, R295: one MEASURE performs exactly 1 + PREC.N raw-sample transactions and nothing else on the
bus, and takes R295's cycles. -/
def Obligations.MeasureCountsItsTransactions : Prop :=
  ∀ (arg : Byte) (s : State), s.status.busy = false → s.status.initDone = true →
    s.status.csHeld = false → s.prec ≠ 0#8 →
    ∃ t n u ev, exec (.measure arg) s = .next t ∧ execs (.measure arg) n t = .next u ∧
      u.status.busy = false ∧ u.hist = s.hist ++ ev ∧
      transactions ev = 1 + s.prec.toNat ∧
      ev.length = (1 + s.prec.toNat) * rawSteps s.status.modeEff ∧
      historyCycles s.build s.status.modeEff ev + commitCycles =
        (1 + s.prec.toNat) *
          (if s.status.modeEff = some .hw then 2 + 48 * s.build.hwDiv + 2 * s.build.tSettle
          else 2 + 80 * s.build.swHalf + 2 * s.build.tSettle) + 1

/-! ## The median filter (44_median.md) -/

/-- R190, R191: the median of `k ≥ 1` values is read off any ascending arrangement of them. -/
def Obligations.MedianOfTheSortedValues : Prop :=
  ∀ (mode : MedianRound) (v : List U12) (sorted : List Nat), v ≠ [] →
    sorted.Perm (v.map BitVec.toNat) → sorted.Pairwise (· ≤ ·) →
    (v.length % 2 = 1 → (median mode v).toNat = sorted.getD ((v.length - 1) / 2) 0) ∧
    (v.length % 2 = 0 →
      (median mode v).toNat =
        (match mode with
        | .floor => (sorted.getD (v.length / 2 - 1) 0 + sorted.getD (v.length / 2) 0) / 2
        | .halfUp => (sorted.getD (v.length / 2 - 1) 0 + sorted.getD (v.length / 2) 0 + 1) / 2))

/-- R196, R192: the median does not depend on the order; of an odd count it is one of the values, of an
even count it lies between the two middle ones; and each axis is taken on its own. -/
def Obligations.MedianLaws : Prop :=
  ∀ mode : MedianRound,
    (∀ v w : List U12, v.Perm w → median mode v = median mode w) ∧
    (∀ v : List U12, v.length % 2 = 1 → median mode v ∈ v) ∧
    (∀ (v : List U12) (sorted : List Nat), v ≠ [] → v.length % 2 = 0 →
      sorted.Perm (v.map BitVec.toNat) → sorted.Pairwise (· ≤ ·) →
      sorted.getD (v.length / 2 - 1) 0 ≤ (median mode v).toNat ∧
      (median mode v).toNat ≤ sorted.getD (v.length / 2) 0) ∧
    (∀ set set' : List Sample, (set.map Sample.x).Perm (set'.map Sample.x) →
      (medianPair mode set).x = (medianPair mode set').x) ∧
    (∀ set set' : List Sample, (set.map Sample.y).Perm (set'.map Sample.y) →
      (medianPair mode set).y = (medianPair mode set').y)

/-- R197, R194: a gather of `k` measurements performs `k · (1 + PREC.N)` raw-sample transactions, and `k`
more or `k` PenSamples for its checks; `k` is NMEAS, and COMPLETE = 1 needs `k = M_MAX`. -/
def Obligations.GatherCountsItsTransactions : Prop :=
  ∀ (arg : Byte) (s : State), s.status.busy = false → s.status.initDone = true →
    s.status.csHeld = false → s.prec ≠ 0#8 → s.build.Legal →
    ∃ t n u ev, exec (.gather arg) s = .next t ∧ execs (.gather arg) n t = .next u ∧
      u.status.busy = false ∧ u.hist = s.hist ++ ev ∧
      transactions ev = u.status.nMeas.toNat * (1 + s.prec.toNat) +
        (if s.cfg.useIrq then 0 else u.status.nMeas.toNat) ∧
      penSamples ev = (if s.cfg.useIrq then u.status.nMeas.toNat else 0) ∧
      1 ≤ u.status.nMeas.toNat ∧ u.status.nMeas.toNat ≤ s.build.mMax ∧
      (u.status.complete = true → u.status.nMeas.toNat = s.build.mMax) ∧
      u.status.touching = u.status.complete

/-! ## The affine transform (45_affine.md, R10) -/

/-- R10: `fl` gives the nearest of all binary32 magnitudes, ties to an even last place, or infinity
where that magnitude would reach 2^128; its sign is the sign given.
That the overflow gives infinity follows IEEE 754 (PRESUMED, entry 15). -/
def Obligations.RoundingIsNearestEven : Prop :=
  ∀ (neg : Bool) (num den : Nat), 0 < den →
    (∃ n : Nat, fl neg num den = .fin neg n ∧ n < 2 ^ 277 ∧
      (∃ m e : Nat, m < 2 ^ 24 ∧ n = m * 2 ^ e) ∧
      (∀ m e : Nat, m < 2 ^ 24 →
        ((n * den : Nat) - (num : Nat) : Int).natAbs ≤
          ((m * 2 ^ e * den : Nat) - (num : Nat) : Int).natAbs) ∧
      (2 * ((n * den : Nat) - (num : Nat) : Int).natAbs = den * 2 ^ lastPlace (num / den) →
        n / 2 ^ lastPlace (num / den) % 2 = 0)) ∨
    (fl neg num den = .inf neg ∧ (2 ^ 25 - 1) * 2 ^ 252 * den ≤ num)

/-- R213, R216, R219, R10, R212: `Xd` is `toCoord` of `((a ⊗ x ⊕ b ⊗ y) ⊕ c) ⊘ RESCALE`, `Yd` the same of
`d`, `e`, `f`; a pattern stands for its binary32 value, a u12 for itself; and each operation on finite
values is `fl` of the exact product, sum or quotient. The signs, infinities and NaN follow IEEE 754
(PRESUMED, entry 15). -/
def Obligations.TransformIsRoundedLeftToRight : Prop :=
  (∀ (b : Params) (m : Machine.Matrix) (v : Sample), xform b m v =
    ⟨toCoord b.clampMode
        ((((((f32 m.a).mul (Fp.ofU12 v.x)).add ((f32 m.b).mul (Fp.ofU12 v.y))).add (f32 m.c))).div
          (f32 b.rescale)),
      toCoord b.clampMode
        ((((((f32 m.d).mul (Fp.ofU12 v.x)).add ((f32 m.e).mul (Fp.ofU12 v.y))).add (f32 m.f))).div
          (f32 b.rescale))⟩) ∧
  (∀ w : Word,
    (w.extractLsb' 23 8 ≠ 255#8 → ∃ n, f32 w = .fin (w.getLsbD 31) n ∧
      unitsValue (w.getLsbD 31) n = binary32Value w) ∧
    (w.extractLsb' 23 8 = 255#8 →
      f32 w = if w.extractLsb' 0 23 = 0#23 then .inf (w.getLsbD 31) else .nan)) ∧
  (∀ v : U12, ∃ n, Fp.ofU12 v = .fin false n ∧ unitsValue false n = (v.toNat : Rat)) ∧
  (∀ (a b : Bool) (n m : Nat),
    IsFl (a ^^ b) (unitsValue a n * unitsValue b m) (Fp.mul (.fin a n) (.fin b m)) ∧
    (unitsValue a n + unitsValue b m ≠ 0 →
      IsFl (decide (unitsValue a n + unitsValue b m < 0)) (unitsValue a n + unitsValue b m)
        (Fp.add (.fin a n) (.fin b m))) ∧
    (unitsValue a n + unitsValue b m = 0 → Fp.add (.fin a n) (.fin b m) = .fin (a && b) 0) ∧
    (m ≠ 0 → IsFl (a ^^ b) (unitsValue a n / unitsValue b m) (Fp.div (.fin a n) (.fin b m)))) ∧
  (∀ (a b : Bool) (n : Nat) (u : Fp),
    Fp.mul .nan u = .nan ∧ Fp.mul u .nan = .nan ∧ Fp.add .nan u = .nan ∧ Fp.add u .nan = .nan ∧
    Fp.div .nan u = .nan ∧
    Fp.mul (.inf a) (.fin b n) = (if n = 0 then .nan else .inf (a ^^ b)) ∧
    Fp.add (.inf a) (.inf b) = (if a = b then .inf a else .nan) ∧
    Fp.add (.inf a) (.fin b n) = .inf a ∧ Fp.add (.fin b n) (.inf a) = .inf a ∧
    (n ≠ 0 → Fp.div (.inf a) (.fin b n) = .inf (a ^^ b)))

/-- R214: NaN and the infinities give 0; otherwise the value is rounded toward zero (`trunc` of R10) and
that integer is kept within 0..60000, in WRAP16 after its low 16 bits are taken; the two modes agree for
−5535..65535. -/
def Obligations.ClampKeepsOnlyPlausibleCoordinates : Prop :=
  (∀ (neg : Bool) (n : Nat), truncUnits neg n =
    if 0 ≤ unitsValue neg n then ⌊unitsValue neg n⌋ else ⌈unitsValue neg n⌉) ∧
  (∀ mode : ClampMode, toCoord mode .nan = 0#16 ∧ toCoord mode (.inf true) = 0#16 ∧
    toCoord mode (.inf false) = 0#16) ∧
  (∀ (neg : Bool) (n : Nat), ((toCoord .range (.fin neg n)).toNat : Int) =
    if truncUnits neg n < 0 ∨ 60000 < truncUnits neg n then 0 else truncUnits neg n) ∧
  (∀ (neg : Bool) (n : Nat), ((toCoord .wrap16 (.fin neg n)).toNat : Int) =
    if 60000 < truncUnits neg n % 65536 then 0 else truncUnits neg n % 65536) ∧
  (∀ (neg : Bool) (n : Nat), -5535 ≤ truncUnits neg n → truncUnits neg n ≤ 65535 →
    toCoord .range (.fin neg n) = toCoord .wrap16 (.fin neg n))

/-- R215: with the reset matrix every coordinate is (0, 0), in both clamp modes and for every legal
RESCALE. -/
def Obligations.ResetMatrixGivesZero : Prop :=
  ∀ (b : Params) (v : Sample), finiteNonzero b.rescale = true →
    xform b Machine.Matrix.zero v = ⟨0#16, 0#16⟩

/-! ## READ_TOUCH (46_controller.md) -/

/-- R236: on an undetected touch READ_TOUCH takes the gate and its commit, and writes TOUCHING = 0 and
COMPLETE = 0 alone: no other register changes, PINS included in the states of the invariant; with
USE_IRQ = 1 its one event is the PenSample, with USE_IRQ = 0 its events are
one raw-sample transaction. -/
def Obligations.UndetectedTouchCostsTheGate : Prop :=
  ∀ (arg : Byte) (s : State), s.status.busy = false → s.status.initDone = true →
    s.status.csHeld = false → s.noError.touchedWhole.1 = false →
    ∃ t u ev, exec (.readTouch arg) s = .next t ∧ t.status.busy = true ∧
      execs (.readTouch arg) (checkSteps s.cfg.useIrq s.status.modeEff + 1) t = .next u ∧
      u.EndsAs { s.noError.touchedWhole.2 with
        status := { s.status with err := .none, touching := false, complete := false } } ∧
      u.status = { s.status with err := .none, touching := false, complete := false } ∧
      u.coord = s.coord ∧ u.med = s.med ∧ u.raw = s.raw ∧ u.mbuf = s.mbuf ∧
      u.meas = s.meas ∧ u.xfer = s.xfer ∧ u.prec = s.prec ∧ u.calAct = s.calAct ∧
      u.cfg = s.cfg ∧ u.cfgLocked = s.cfgLocked ∧ u.waitLimit = s.waitLimit ∧ u.tin = s.tin ∧
      u.cal = s.cal ∧ (s.Inv → u.pins = s.pins) ∧
      u.hist = s.hist ++ ev ∧
      (s.cfg.useIrq = true → ev = [.pen true]) ∧
      (s.cfg.useIrq = false → transactions ev = 1 ∧ ev.length = rawSteps s.status.modeEff)

/-- R237: the raw-sample transactions and PenSamples of one READ_TOUCH, and the transport calls that the
transactions are made of. -/
def Obligations.ReadTouchCountsItsTransactions : Prop :=
  ∀ (arg : Byte) (s : State), s.status.busy = false → s.status.initDone = true →
    s.status.csHeld = false → s.prec ≠ 0#8 → s.build.Legal →
    ∃ t n u ev, exec (.readTouch arg) s = .next t ∧ execs (.readTouch arg) n t = .next u ∧
      u.status.busy = false ∧ u.hist = s.hist ++ ev ∧
      (transactions ev, penSamples ev) =
        (match s.cfg.useIrq, u.status.touching with
        | true, false => (0, 1)
        | true, true =>
          (u.status.nMeas.toNat * (1 + s.prec.toNat), 1 + u.status.nMeas.toNat)
        | false, false => (1, 0)
        | false, true =>
          (1 + u.status.nMeas.toNat * (1 + s.prec.toNat) + u.status.nMeas.toNat, 0)) ∧
      transportCalls ev =
        (if s.status.modeEff = some .hw then 6 else 4) * transactions ev ∧
      read12Calls ev = (if s.status.modeEff = some .hw then 0 else 2) * transactions ev ∧
      ev.countP (· == .delay) = 2 * transactions ev ∧
      ev.countP (· == .cs false) = transactions ev

/-! ## The host register space (10_state.md, 20_memory.md) -/

/-- R32, R39, R251 (STATUS and the codes of MODE_EFF and ERR), R28 (CFG and the codes of MODE), R44, R45, R48, R49, R53, R54: the fields
of the registers, reserved bits reading 0. -/
def Obligations.RegisterLayouts : Prop :=
  (∀ v : Status,
    v.word.getLsbD 0 = v.busy ∧ v.word.getLsbD 1 = v.initDone ∧ v.word.getLsbD 2 = v.touching ∧
    v.word.getLsbD 3 = v.complete ∧ v.word.getLsbD 4 = v.csHeld ∧ v.word.getLsbD 5 = v.cmdOvr ∧
    v.word.extractLsb' 6 2 = modeEffBits v.modeEff ∧ v.word.extractLsb' 8 4 = v.err.code ∧
    v.word.extractLsb' 12 4 = 0#4 ∧ v.word.extractLsb' 16 5 = v.nMeas ∧
    v.word.extractLsb' 21 11 = 0#11) ∧
  (modeEffBits none = 0b00#2 ∧ modeEffBits (some .hw) = 0b01#2 ∧ modeEffBits (some .sw) = 0b10#2) ∧
  [ErrCode.none, .illegalOp, .notInit, .reinit, .busHeld, .badArg, .timeout].map ErrCode.code =
    [0#4, 1#4, 2#4, 3#4, 4#4, 5#4, 6#4] ∧
  (CfgMode.auto.bits = 0b00#2 ∧ CfgMode.hardware.bits = 0b01#2 ∧
    CfgMode.software.bits = 0b10#2) ∧
  (∀ c : Cfg, c.word.extractLsb' 0 2 = c.mode.bits ∧ c.mode.bits ≠ 0b11#2 ∧
    c.word.getLsbD 2 = c.useIrq ∧ c.word.extractLsb' 3 29 = 0#29) ∧
  (∀ c : Coord, c.word.extractLsb' 0 16 = c.xd ∧ c.word.extractLsb' 16 16 = c.yd) ∧
  (∀ v : Sample, v.word.extractLsb' 0 12 = v.x ∧ v.word.extractLsb' 12 4 = 0#4 ∧
    v.word.extractLsb' 16 12 = v.y ∧ v.word.extractLsb' 28 4 = 0#4 ∧ Sample.ofWord v.word = v) ∧
  (∀ v : XferReg, v.word.extractLsb' 0 8 = v.rxByte ∧ v.word.extractLsb' 8 8 = 0#8 ∧
    v.word.extractLsb' 16 12 = v.axis ∧ v.word.extractLsb' 28 4 = 0#4) ∧
  (∀ (p : Pins) (miso pen : Bool), (p.word miso pen).getLsbD 0 = p.csN ∧
    (p.word miso pen).getLsbD 1 = p.sclk ∧ (p.word miso pen).getLsbD 2 = p.mosi ∧
    (p.word miso pen).getLsbD 3 = miso ∧ (p.word miso pen).getLsbD 4 = pen ∧
    (p.word miso pen).getLsbD 5 = p.oe ∧ (p.word miso pen).extractLsb' 6 26 = 0#26) ∧
  (∀ b : Params, b.mMax ≤ 16 → ((paramsWord b).extractLsb' 0 5).toNat = b.mMax ∧
    (paramsWord b).getLsbD 5 = decide (b.autoMode = .sw) ∧
    (paramsWord b).getLsbD 6 = decide (b.medianRound = .halfUp) ∧
    (paramsWord b).getLsbD 7 = decide (b.clampMode = .wrap16) ∧
    (paramsWord b).extractLsb' 8 8 = b.cmdX ∧ (paramsWord b).extractLsb' 16 8 = b.cmdY ∧
    (paramsWord b).extractLsb' 24 8 = 0#8)

/-- R26, R31, R55, R61, R63: what each of the 64 words reads as, whatever `hb_addr[1:0]` is. -/
def Obligations.RegisterMapReads : Prop :=
  ∀ (s : State) (levels : Bool × Bool) (lo : BitVec 2), s.rstN = true →
    s.memRead levels (0#6 ++ lo) = 0x54464501#32 ∧
    s.memRead levels (1#6 ++ lo) = s.cfg.word ∧
    s.memRead levels (2#6 ++ lo) = 0#32 ∧
    s.memRead levels (3#6 ++ lo) = s.status.word ∧
    s.memRead levels (4#6 ++ lo) = s.prec.setWidth 32 ∧
    s.memRead levels (5#6 ++ lo) = s.waitLimit ∧
    s.memRead levels (6#6 ++ lo) = s.coord.word ∧
    s.memRead levels (7#6 ++ lo) = s.raw.word ∧
    s.memRead levels (8#6 ++ lo) = s.meas.word ∧
    s.memRead levels (9#6 ++ lo) = s.med.word ∧
    s.memRead levels (10#6 ++ lo) = s.xfer.word ∧
    s.memRead levels (11#6 ++ lo) = s.tin.word ∧
    [12#6, 13#6, 14#6, 15#6, 16#6, 17#6].map (fun a => s.memRead levels (a ++ lo)) =
      [s.cal.a, s.cal.b, s.cal.c, s.cal.d, s.cal.e, s.cal.f] ∧
    [20#6, 21#6, 22#6, 23#6, 24#6, 25#6].map (fun a => s.memRead levels (a ++ lo)) =
      [s.calAct.a, s.calAct.b, s.calAct.c, s.calAct.d, s.calAct.e, s.calAct.f] ∧
    s.memRead levels (26#6 ++ lo) = s.build.rescale ∧
    s.memRead levels (27#6 ++ lo) = s.pins.word levels.1 levels.2 ∧
    s.memRead levels (28#6 ++ lo) = paramsWord s.build ∧
    (∀ i : Fin 16, s.memRead levels (BitVec.ofNat 6 (32 + i.val) ++ lo) =
      if i.val < s.build.mMax then s.mbuf[i].word else 0#32) ∧
    (∀ a : BitVec 6, a ∈ [18#6, 19#6, 29#6, 30#6, 31#6] ∨ 48 ≤ a.toNat →
      s.memRead levels (a ++ lo) = 0#32)

/-- R65, R29, R30, R38, R43, R49, R50, R63: what a write to each word but CMD leaves the word reading, and
that no other word changes. -/
def Obligations.RegisterWrites : Prop :=
  ∀ (s : State) (levels : Bool × Bool) (a : Nat) (w : Word),
    (s.writeRegister a w).register levels a =
      (if a = 0x04 ∧ s.cfgLocked = false then
        (if w.extractLsb' 0 2 = 0b11#2 then (w &&& 0x4#32) ||| (s.cfg.word &&& 0x3#32)
        else w &&& 0x7#32)
      else if a = 0x0C then
        (if w.getLsbD 5 then s.status.word &&& 0xFFFFFFDF#32 else s.status.word)
      else if a = 0x2C then w &&& 0x0FFF0FFF#32
      else if a ∈ [0x14, 0x30, 0x34, 0x38, 0x3C, 0x40, 0x44] then w
      else s.register levels a) ∧
    (∀ a', a' ≠ a → (s.writeRegister a w).register levels a' = s.register levels a') ∧
    (s.writeRegister a w).writeRegister a w = s.writeRegister a w

/-- R6, R60, R65, R92: each host action is one step: a write to any word but CMD writes that register; a
read gives what `hostRead` gives; WAITIDLE reads STATUS and is over exactly when that read shows BUSY
= 0. `e` is the input state the action starts from: the turn is taken where the sequencer has a step. -/
def Obligations.HostActionSteps : Prop :=
  ∀ (s : State) (a : HostAction) (rest : List HostAction) (e : Env),
    s.env.script = a :: rest → s.rstN = true →
    (s.status.busy = false ∧ e = s.env ∨ s.status.busy = true ∧ s.env.takeTurn = (.host, e)) →
    (∀ addr w, a = .write addr w → wordAddr addr ≠ 0x08 →
      step s = .next ({ s with env := { e with script := rest } }.writeRegister (wordAddr addr) w)) ∧
    (∀ addr, a = .read addr →
      step s = .next ({ s with env := { e with script := rest } }.hostRead addr)) ∧
    (a = .waitIdle → step s = .next { s with
      env := { e with script := if s.status.busy then .waitIdle :: rest else rest }
      rdata := s.status.word
      reads := s.reads ++ [(0x0C#8, s.status.word)] })

/-- R64: a host read changes only what the host has read and the levels drawn for PINS; every register
then reads as before. -/
def Obligations.ReadsHaveNoSideEffect : Prop :=
  ∀ (s : State) (addr : Byte),
    s.hostRead addr = { s with
      rdata := (s.hostRead addr).rdata, reads := (s.hostRead addr).reads
      env := { s.env with
        pins := (s.hostRead addr).env.pins, freshPins := (s.hostRead addr).env.freshPins } } ∧
    (wordAddr addr ≠ 0x6C → (s.hostRead addr).env = s.env ∧
      ∀ levels, (s.hostRead addr).rdata = s.memRead levels addr) ∧
    (∃ levels, (s.hostRead addr).rdata = s.memRead levels addr) ∧
    (wordAddr addr = 0x08 → (s.hostRead addr).rdata = 0#32) ∧
    (s.hostRead addr).reads = s.reads ++ [(addr, (s.hostRead addr).rdata)] ∧
    ∀ levels a, (s.hostRead addr).memRead levels a = s.memRead levels a

/-! ## Reset (70_reset_and_hazards.md) -/

/-- R280–R282: whenever the host has the step, the block idle or a command in flight, out of reset or held
in it, its reset step leaves the reset state, driving `rst_n` low leaves that state and holds it, and
driving `rst_n` high releases it. While `rst_n` is low host writes are ignored and host reads return 0.
The model's choices: what the reset state holds in `mvals`, `seq.res` and the synchronizer flops, which
R281 leaves unspecified (entries 8, 9, 10), and in the dividers, the settling counter and the loop
indices, which it does not list (entries 11, 13); that `rst_n` is driven as a host action, that history,
reads, build and inputs stay through a reset, and `hb_rdata` = 0 (entry 12); and whose the step is
(entry 4). -/
def Obligations.ResetAndHeldInReset : Prop :=
  (∀ (s : State) (e : Env) (rest : List HostAction),
    ((s.status.busy = false ∨ s.rstN = false) ∧ e = s.env ∨
      s.status.busy = true ∧ s.rstN = true ∧ s.env.takeTurn = (.host, e)) →
    (s.env.script = .reset :: rest →
      step s = .next (State.resetOf s.build s.hist s.reads { e with script := rest })) ∧
    (s.env.script = .setRst false :: rest → step s = .next
      { State.resetOf s.build s.hist s.reads { e with script := rest } with rstN := false }) ∧
    (s.env.script = .setRst true :: rest →
      step s = .next { s with env := { e with script := rest }, rstN := true })) ∧
  (∀ (s : State) (addr : Byte) (w : Word) (rest : List HostAction), s.rstN = false →
    (s.env.script = .write addr w :: rest →
      step s = .next { s with env := { s.env with script := rest } }) ∧
    (s.env.script = .read addr :: rest → step s = .next { s with
      env := { s.env with script := rest }, rdata := 0#32, reads := s.reads ++ [(addr, 0#32)] }))

/-- R26 (its reset column), R281: what the registers read as right after reset, for every build. -/
def Obligations.ResetRegisterValues : Prop :=
  ∀ (b : Params) (hist : List Event) (reads : List (Byte × Word)) (env : Env)
      (levels : Bool × Bool) (a : Nat),
    (State.resetOf b hist reads env).register levels a =
      (if a = 0x00 then 0x54464501#32
      else if a = 0x10 then 3#32
      else if a = 0x68 then b.rescale
      else if a = 0x6C then 0x1#32 ||| (BitVec.ofBool levels.1).setWidth 32 <<< 3 |||
        (BitVec.ofBool levels.2).setWidth 32 <<< 4
      else if a = 0x70 then paramsWord b
      else 0#32) ∧
    (State.resetOf b hist reads env).seq.op = none ∧
    (State.resetOf b hist reads env).cfgLocked = false

/-! ## The whole machine -/

/-- The invariant (its clauses cite R7, R23, R33, R37, R39–R42, R104, R107, R136, R157, R173, R193, R194,
R232, R253–R255, R280) holds at reset, whatever the OPEN parameters are. -/
def Obligations.ResetMeetsTheInvariant : Prop :=
  State.reset.Inv

/-- Every step from a state of the invariant, of the host or of the sequencer, keeps it. -/
def Obligations.StepKeepsTheInvariant : Prop :=
  ∀ s t : State, s.Inv → step s = .next t → t.Inv

/-- R250, R70: the block has no faults: from a state of the invariant every step answers a next state. -/
def Obligations.StepNeverStops : Prop :=
  ∀ s : State, s.Inv → ∃ t, step s = .next t

/-- R71 (its points 2, 4 and 5), R286: in a step that is not a reset the result registers change only when
it clears BUSY. R55, R193: MBUF changes only when it ends measurement `i` of a gather, in entry `i`,
together with `mvals`. -/
def Obligations.ResultsChangeOnlyAtTheirSteps : Prop :=
  ∀ s t : State, step s = .next t → s.nextIsReset = false →
    (t.visible ≠ s.visible →
      s.nextIsSequencer = true ∧ s.status.busy = true ∧ t.status.busy = false) ∧
    (t.mbuf ≠ s.mbuf →
      s.nextIsSequencer = true ∧ s.status.busy = true ∧ s.seq.pos = .raw .sample .csOff ∧
      (∃ arg, s.seq.inFlight = some (.gather arg) ∨ s.seq.inFlight = some (.readTouch arg)) ∧
      ∃ m : Sample, t.mbuf = s.mbuf.setIfInBounds s.seq.i m ∧
        t.mvals = s.mvals.setIfInBounds s.seq.i m)

/-- R30, R39, R100, R288: from INIT's commit on, in every step but a reset, CFG and the engine in use never change. -/
def Obligations.ConfigurationIsFixedAfterInit : Prop :=
  ∀ s t : State, s.Inv → s.status.initDone = true → s.nextIsReset = false → step s = .next t →
    t.cfg = s.cfg ∧ t.status.modeEff = s.status.modeEff ∧ t.status.initDone = true ∧
      t.cfgLocked = true ∧ t.pins.oe = true

/-- R284: before INIT commits no step performs a bus event or a PenSample, and the serial outputs stay
undriven. -/
def Obligations.NothingOnTheBusBeforeInit : Prop :=
  ∀ s t : State, s.Inv → s.status.initDone = false → step s = .next t →
    t.hist = s.hist ∧ t.env.miso = s.env.miso ∧ t.env.pen = s.env.pen ∧ s.pins.oe = false ∧
      (t.status.initDone = true →
        s.status.busy = true ∧ ∃ arg, s.seq.inFlight = some (.init arg))

/-- R9, R76, R296: a step records at most one event, and only while a command is in flight. -/
def Obligations.OneEventPerStep : Prop :=
  ∀ s t : State, step s = .next t →
    t.hist = s.hist ∨ (s.status.busy = true ∧ ∃ e, t.hist = s.hist ++ [e])

/-- R74, R64, R289, R299: a host write to any register but CMD, and every host read, do not reach the
command in flight: its step and the access commute, the read giving what it gave first. SET_CAL reads
the staged matrix in its commit (R211), so a write to CAL_A..CAL_F is no case of it. -/
def Obligations.HostAccessesDoNotReachTheCommand : Prop :=
  ∀ (i : Instr) (s t : State) (a : Nat) (w : Word), s.Inv → s.status.busy = true →
    s.seq.inFlight = some i → exec i s = .next t →
    ((i.opcode ≠ 0x05#8 ∨ a < 0x30 ∨ 0x44 < a) →
      exec i (s.writeRegister a w) = .next (t.writeRegister a w)) ∧
    ∀ addr : Byte, exec i (s.hostRead addr) = .next { t with
      rdata := (s.hostRead addr).rdata, reads := (s.hostRead addr).reads
      env := { t.env with
        pins := (s.hostRead addr).env.pins, freshPins := (s.hostRead addr).env.freshPins } }
end

