-- ==== Sys2Proof/Laws/State.lean ====
section
/-! SUPPORT. One lemma per field of State per named update, each true by rfl. -/

namespace Sys2Proof.Machine

/-! ### goto -/

@[simp] theorem State.goto_cfg (p : Pos) (s : State) :
    (s.goto p).cfg = s.cfg := rfl
@[simp] theorem State.goto_cfgLocked (p : Pos) (s : State) :
    (s.goto p).cfgLocked = s.cfgLocked := rfl
@[simp] theorem State.goto_status (p : Pos) (s : State) :
    (s.goto p).status = s.status := rfl
@[simp] theorem State.goto_prec (p : Pos) (s : State) :
    (s.goto p).prec = s.prec := rfl
@[simp] theorem State.goto_waitLimit (p : Pos) (s : State) :
    (s.goto p).waitLimit = s.waitLimit := rfl
@[simp] theorem State.goto_coord (p : Pos) (s : State) :
    (s.goto p).coord = s.coord := rfl
@[simp] theorem State.goto_raw (p : Pos) (s : State) :
    (s.goto p).raw = s.raw := rfl
@[simp] theorem State.goto_meas (p : Pos) (s : State) :
    (s.goto p).meas = s.meas := rfl
@[simp] theorem State.goto_med (p : Pos) (s : State) :
    (s.goto p).med = s.med := rfl
@[simp] theorem State.goto_xfer (p : Pos) (s : State) :
    (s.goto p).xfer = s.xfer := rfl
@[simp] theorem State.goto_tin (p : Pos) (s : State) :
    (s.goto p).tin = s.tin := rfl
@[simp] theorem State.goto_cal (p : Pos) (s : State) :
    (s.goto p).cal = s.cal := rfl
@[simp] theorem State.goto_calAct (p : Pos) (s : State) :
    (s.goto p).calAct = s.calAct := rfl
@[simp] theorem State.goto_mbuf (p : Pos) (s : State) :
    (s.goto p).mbuf = s.mbuf := rfl
@[simp] theorem State.goto_pins (p : Pos) (s : State) :
    (s.goto p).pins = s.pins := rfl
@[simp] theorem State.goto_seq (p : Pos) (s : State) :
    (s.goto p).seq = { s.seq with pos := p } := rfl
@[simp] theorem State.goto_accX (p : Pos) (s : State) :
    (s.goto p).accX = s.accX := rfl
@[simp] theorem State.goto_accY (p : Pos) (s : State) :
    (s.goto p).accY = s.accY := rfl
@[simp] theorem State.goto_mvals (p : Pos) (s : State) :
    (s.goto p).mvals = s.mvals := rfl
@[simp] theorem State.goto_engines (p : Pos) (s : State) :
    (s.goto p).engines = s.engines := rfl
@[simp] theorem State.goto_sync (p : Pos) (s : State) :
    (s.goto p).sync = s.sync := rfl
@[simp] theorem State.goto_rstN (p : Pos) (s : State) :
    (s.goto p).rstN = s.rstN := rfl
@[simp] theorem State.goto_rdata (p : Pos) (s : State) :
    (s.goto p).rdata = s.rdata := rfl
@[simp] theorem State.goto_hist (p : Pos) (s : State) :
    (s.goto p).hist = s.hist := rfl
@[simp] theorem State.goto_build (p : Pos) (s : State) :
    (s.goto p).build = s.build := rfl
@[simp] theorem State.goto_reads (p : Pos) (s : State) :
    (s.goto p).reads = s.reads := rfl
@[simp] theorem State.goto_env (p : Pos) (s : State) :
    (s.goto p).env = s.env := rfl

/-! ### keep -/

@[simp] theorem State.keep_cfg (f : Results → Results) (s : State) :
    (s.keep f).cfg = s.cfg := rfl
@[simp] theorem State.keep_cfgLocked (f : Results → Results) (s : State) :
    (s.keep f).cfgLocked = s.cfgLocked := rfl
@[simp] theorem State.keep_status (f : Results → Results) (s : State) :
    (s.keep f).status = s.status := rfl
@[simp] theorem State.keep_prec (f : Results → Results) (s : State) :
    (s.keep f).prec = s.prec := rfl
@[simp] theorem State.keep_waitLimit (f : Results → Results) (s : State) :
    (s.keep f).waitLimit = s.waitLimit := rfl
@[simp] theorem State.keep_coord (f : Results → Results) (s : State) :
    (s.keep f).coord = s.coord := rfl
@[simp] theorem State.keep_raw (f : Results → Results) (s : State) :
    (s.keep f).raw = s.raw := rfl
@[simp] theorem State.keep_meas (f : Results → Results) (s : State) :
    (s.keep f).meas = s.meas := rfl
@[simp] theorem State.keep_med (f : Results → Results) (s : State) :
    (s.keep f).med = s.med := rfl
@[simp] theorem State.keep_xfer (f : Results → Results) (s : State) :
    (s.keep f).xfer = s.xfer := rfl
@[simp] theorem State.keep_tin (f : Results → Results) (s : State) :
    (s.keep f).tin = s.tin := rfl
@[simp] theorem State.keep_cal (f : Results → Results) (s : State) :
    (s.keep f).cal = s.cal := rfl
@[simp] theorem State.keep_calAct (f : Results → Results) (s : State) :
    (s.keep f).calAct = s.calAct := rfl
@[simp] theorem State.keep_mbuf (f : Results → Results) (s : State) :
    (s.keep f).mbuf = s.mbuf := rfl
@[simp] theorem State.keep_pins (f : Results → Results) (s : State) :
    (s.keep f).pins = s.pins := rfl
@[simp] theorem State.keep_seq (f : Results → Results) (s : State) :
    (s.keep f).seq = { s.seq with res := f s.seq.res } := rfl
@[simp] theorem State.keep_accX (f : Results → Results) (s : State) :
    (s.keep f).accX = s.accX := rfl
@[simp] theorem State.keep_accY (f : Results → Results) (s : State) :
    (s.keep f).accY = s.accY := rfl
@[simp] theorem State.keep_mvals (f : Results → Results) (s : State) :
    (s.keep f).mvals = s.mvals := rfl
@[simp] theorem State.keep_engines (f : Results → Results) (s : State) :
    (s.keep f).engines = s.engines := rfl
@[simp] theorem State.keep_sync (f : Results → Results) (s : State) :
    (s.keep f).sync = s.sync := rfl
@[simp] theorem State.keep_rstN (f : Results → Results) (s : State) :
    (s.keep f).rstN = s.rstN := rfl
@[simp] theorem State.keep_rdata (f : Results → Results) (s : State) :
    (s.keep f).rdata = s.rdata := rfl
@[simp] theorem State.keep_hist (f : Results → Results) (s : State) :
    (s.keep f).hist = s.hist := rfl
@[simp] theorem State.keep_build (f : Results → Results) (s : State) :
    (s.keep f).build = s.build := rfl
@[simp] theorem State.keep_reads (f : Results → Results) (s : State) :
    (s.keep f).reads = s.reads := rfl
@[simp] theorem State.keep_env (f : Results → Results) (s : State) :
    (s.keep f).env = s.env := rfl

/-! ### setCs -/

@[simp] theorem State.setCs_cfg (a : Bool) (s : State) :
    (s.setCs a).cfg = s.cfg := rfl
@[simp] theorem State.setCs_cfgLocked (a : Bool) (s : State) :
    (s.setCs a).cfgLocked = s.cfgLocked := rfl
@[simp] theorem State.setCs_status (a : Bool) (s : State) :
    (s.setCs a).status = s.status := rfl
@[simp] theorem State.setCs_prec (a : Bool) (s : State) :
    (s.setCs a).prec = s.prec := rfl
@[simp] theorem State.setCs_waitLimit (a : Bool) (s : State) :
    (s.setCs a).waitLimit = s.waitLimit := rfl
@[simp] theorem State.setCs_coord (a : Bool) (s : State) :
    (s.setCs a).coord = s.coord := rfl
@[simp] theorem State.setCs_raw (a : Bool) (s : State) :
    (s.setCs a).raw = s.raw := rfl
@[simp] theorem State.setCs_meas (a : Bool) (s : State) :
    (s.setCs a).meas = s.meas := rfl
@[simp] theorem State.setCs_med (a : Bool) (s : State) :
    (s.setCs a).med = s.med := rfl
@[simp] theorem State.setCs_xfer (a : Bool) (s : State) :
    (s.setCs a).xfer = s.xfer := rfl
@[simp] theorem State.setCs_tin (a : Bool) (s : State) :
    (s.setCs a).tin = s.tin := rfl
@[simp] theorem State.setCs_cal (a : Bool) (s : State) :
    (s.setCs a).cal = s.cal := rfl
@[simp] theorem State.setCs_calAct (a : Bool) (s : State) :
    (s.setCs a).calAct = s.calAct := rfl
@[simp] theorem State.setCs_mbuf (a : Bool) (s : State) :
    (s.setCs a).mbuf = s.mbuf := rfl
@[simp] theorem State.setCs_pins (a : Bool) (s : State) :
    (s.setCs a).pins = { s.pins with csN := !a } := rfl
@[simp] theorem State.setCs_seq (a : Bool) (s : State) :
    (s.setCs a).seq = s.seq := rfl
@[simp] theorem State.setCs_accX (a : Bool) (s : State) :
    (s.setCs a).accX = s.accX := rfl
@[simp] theorem State.setCs_accY (a : Bool) (s : State) :
    (s.setCs a).accY = s.accY := rfl
@[simp] theorem State.setCs_mvals (a : Bool) (s : State) :
    (s.setCs a).mvals = s.mvals := rfl
@[simp] theorem State.setCs_engines (a : Bool) (s : State) :
    (s.setCs a).engines = s.engines := rfl
@[simp] theorem State.setCs_sync (a : Bool) (s : State) :
    (s.setCs a).sync = s.sync := rfl
@[simp] theorem State.setCs_rstN (a : Bool) (s : State) :
    (s.setCs a).rstN = s.rstN := rfl
@[simp] theorem State.setCs_rdata (a : Bool) (s : State) :
    (s.setCs a).rdata = s.rdata := rfl
@[simp] theorem State.setCs_hist (a : Bool) (s : State) :
    (s.setCs a).hist = s.hist ++ [.cs a] := rfl
@[simp] theorem State.setCs_build (a : Bool) (s : State) :
    (s.setCs a).build = s.build := rfl
@[simp] theorem State.setCs_reads (a : Bool) (s : State) :
    (s.setCs a).reads = s.reads := rfl
@[simp] theorem State.setCs_env (a : Bool) (s : State) :
    (s.setCs a).env = s.env := rfl

/-! ### settle -/

@[simp] theorem State.settle_cfg (s : State) :
    s.settle.cfg = s.cfg := rfl
@[simp] theorem State.settle_cfgLocked (s : State) :
    s.settle.cfgLocked = s.cfgLocked := rfl
@[simp] theorem State.settle_status (s : State) :
    s.settle.status = s.status := rfl
@[simp] theorem State.settle_prec (s : State) :
    s.settle.prec = s.prec := rfl
@[simp] theorem State.settle_waitLimit (s : State) :
    s.settle.waitLimit = s.waitLimit := rfl
@[simp] theorem State.settle_coord (s : State) :
    s.settle.coord = s.coord := rfl
@[simp] theorem State.settle_raw (s : State) :
    s.settle.raw = s.raw := rfl
@[simp] theorem State.settle_meas (s : State) :
    s.settle.meas = s.meas := rfl
@[simp] theorem State.settle_med (s : State) :
    s.settle.med = s.med := rfl
@[simp] theorem State.settle_xfer (s : State) :
    s.settle.xfer = s.xfer := rfl
@[simp] theorem State.settle_tin (s : State) :
    s.settle.tin = s.tin := rfl
@[simp] theorem State.settle_cal (s : State) :
    s.settle.cal = s.cal := rfl
@[simp] theorem State.settle_calAct (s : State) :
    s.settle.calAct = s.calAct := rfl
@[simp] theorem State.settle_mbuf (s : State) :
    s.settle.mbuf = s.mbuf := rfl
@[simp] theorem State.settle_pins (s : State) :
    s.settle.pins = s.pins := rfl
@[simp] theorem State.settle_seq (s : State) :
    s.settle.seq = s.seq := rfl
@[simp] theorem State.settle_accX (s : State) :
    s.settle.accX = s.accX := rfl
@[simp] theorem State.settle_accY (s : State) :
    s.settle.accY = s.accY := rfl
@[simp] theorem State.settle_mvals (s : State) :
    s.settle.mvals = s.mvals := rfl
@[simp] theorem State.settle_engines (s : State) :
    s.settle.engines = { s.engines with settle := 0 } := rfl
@[simp] theorem State.settle_sync (s : State) :
    s.settle.sync = s.sync := rfl
@[simp] theorem State.settle_rstN (s : State) :
    s.settle.rstN = s.rstN := rfl
@[simp] theorem State.settle_rdata (s : State) :
    s.settle.rdata = s.rdata := rfl
@[simp] theorem State.settle_hist (s : State) :
    s.settle.hist = s.hist ++ [.delay] := rfl
@[simp] theorem State.settle_build (s : State) :
    s.settle.build = s.build := rfl
@[simp] theorem State.settle_reads (s : State) :
    s.settle.reads = s.reads := rfl
@[simp] theorem State.settle_env (s : State) :
    s.settle.env = s.env := rfl

/-! ### penSample -/

@[simp] theorem State.penSample_cfg (s : State) :
    s.penSample.2.cfg = s.cfg := rfl
@[simp] theorem State.penSample_cfgLocked (s : State) :
    s.penSample.2.cfgLocked = s.cfgLocked := rfl
@[simp] theorem State.penSample_status (s : State) :
    s.penSample.2.status = s.status := rfl
@[simp] theorem State.penSample_prec (s : State) :
    s.penSample.2.prec = s.prec := rfl
@[simp] theorem State.penSample_waitLimit (s : State) :
    s.penSample.2.waitLimit = s.waitLimit := rfl
@[simp] theorem State.penSample_coord (s : State) :
    s.penSample.2.coord = s.coord := rfl
@[simp] theorem State.penSample_raw (s : State) :
    s.penSample.2.raw = s.raw := rfl
@[simp] theorem State.penSample_meas (s : State) :
    s.penSample.2.meas = s.meas := rfl
@[simp] theorem State.penSample_med (s : State) :
    s.penSample.2.med = s.med := rfl
@[simp] theorem State.penSample_xfer (s : State) :
    s.penSample.2.xfer = s.xfer := rfl
@[simp] theorem State.penSample_tin (s : State) :
    s.penSample.2.tin = s.tin := rfl
@[simp] theorem State.penSample_cal (s : State) :
    s.penSample.2.cal = s.cal := rfl
@[simp] theorem State.penSample_calAct (s : State) :
    s.penSample.2.calAct = s.calAct := rfl
@[simp] theorem State.penSample_mbuf (s : State) :
    s.penSample.2.mbuf = s.mbuf := rfl
@[simp] theorem State.penSample_pins (s : State) :
    s.penSample.2.pins = s.pins := rfl
@[simp] theorem State.penSample_seq (s : State) :
    s.penSample.2.seq = s.seq := rfl
@[simp] theorem State.penSample_accX (s : State) :
    s.penSample.2.accX = s.accX := rfl
@[simp] theorem State.penSample_accY (s : State) :
    s.penSample.2.accY = s.accY := rfl
@[simp] theorem State.penSample_mvals (s : State) :
    s.penSample.2.mvals = s.mvals := rfl
@[simp] theorem State.penSample_engines (s : State) :
    s.penSample.2.engines = s.engines := rfl
@[simp] theorem State.penSample_rstN (s : State) :
    s.penSample.2.rstN = s.rstN := rfl
@[simp] theorem State.penSample_rdata (s : State) :
    s.penSample.2.rdata = s.rdata := rfl
@[simp] theorem State.penSample_hist (s : State) :
    s.penSample.2.hist = s.hist ++ [.pen s.penSample.1] := rfl
@[simp] theorem State.penSample_build (s : State) :
    s.penSample.2.build = s.build := rfl
@[simp] theorem State.penSample_reads (s : State) :
    s.penSample.2.reads = s.reads := rfl
@[simp] theorem State.penSample_env (s : State) :
    s.penSample.2.env = s.env.takePen.2 := rfl

/-! ### busXfer -/

@[simp] theorem State.busXfer_cfg (o : Byte) (s : State) :
    (s.busXfer o).2.cfg = s.cfg := rfl
@[simp] theorem State.busXfer_cfgLocked (o : Byte) (s : State) :
    (s.busXfer o).2.cfgLocked = s.cfgLocked := rfl
@[simp] theorem State.busXfer_status (o : Byte) (s : State) :
    (s.busXfer o).2.status = s.status := rfl
@[simp] theorem State.busXfer_prec (o : Byte) (s : State) :
    (s.busXfer o).2.prec = s.prec := rfl
@[simp] theorem State.busXfer_waitLimit (o : Byte) (s : State) :
    (s.busXfer o).2.waitLimit = s.waitLimit := rfl
@[simp] theorem State.busXfer_coord (o : Byte) (s : State) :
    (s.busXfer o).2.coord = s.coord := rfl
@[simp] theorem State.busXfer_raw (o : Byte) (s : State) :
    (s.busXfer o).2.raw = s.raw := rfl
@[simp] theorem State.busXfer_meas (o : Byte) (s : State) :
    (s.busXfer o).2.meas = s.meas := rfl
@[simp] theorem State.busXfer_med (o : Byte) (s : State) :
    (s.busXfer o).2.med = s.med := rfl
@[simp] theorem State.busXfer_xfer (o : Byte) (s : State) :
    (s.busXfer o).2.xfer = s.xfer := rfl
@[simp] theorem State.busXfer_tin (o : Byte) (s : State) :
    (s.busXfer o).2.tin = s.tin := rfl
@[simp] theorem State.busXfer_cal (o : Byte) (s : State) :
    (s.busXfer o).2.cal = s.cal := rfl
@[simp] theorem State.busXfer_calAct (o : Byte) (s : State) :
    (s.busXfer o).2.calAct = s.calAct := rfl
@[simp] theorem State.busXfer_mbuf (o : Byte) (s : State) :
    (s.busXfer o).2.mbuf = s.mbuf := rfl
@[simp] theorem State.busXfer_pins (o : Byte) (s : State) :
    (s.busXfer o).2.pins = s.pins.idleClock := rfl
@[simp] theorem State.busXfer_seq (o : Byte) (s : State) :
    (s.busXfer o).2.seq = s.seq := rfl
@[simp] theorem State.busXfer_accX (o : Byte) (s : State) :
    (s.busXfer o).2.accX = s.accX := rfl
@[simp] theorem State.busXfer_accY (o : Byte) (s : State) :
    (s.busXfer o).2.accY = s.accY := rfl
@[simp] theorem State.busXfer_mvals (o : Byte) (s : State) :
    (s.busXfer o).2.mvals = s.mvals := rfl
@[simp] theorem State.busXfer_engines (o : Byte) (s : State) :
    (s.busXfer o).2.engines = s.enginesAfter (s.busXfer o).1 := rfl
@[simp] theorem State.busXfer_rstN (o : Byte) (s : State) :
    (s.busXfer o).2.rstN = s.rstN := rfl
@[simp] theorem State.busXfer_rdata (o : Byte) (s : State) :
    (s.busXfer o).2.rdata = s.rdata := rfl
@[simp] theorem State.busXfer_hist (o : Byte) (s : State) :
    (s.busXfer o).2.hist = s.hist ++ [.xfer o (s.busXfer o).1] := rfl
@[simp] theorem State.busXfer_build (o : Byte) (s : State) :
    (s.busXfer o).2.build = s.build := rfl
@[simp] theorem State.busXfer_reads (o : Byte) (s : State) :
    (s.busXfer o).2.reads = s.reads := rfl
@[simp] theorem State.busXfer_env (o : Byte) (s : State) :
    (s.busXfer o).2.env = (s.exchange o).env := rfl

/-! ### busRead12 -/

@[simp] theorem State.busRead12_cfg (s : State) :
    s.busRead12.2.cfg = s.cfg := rfl
@[simp] theorem State.busRead12_cfgLocked (s : State) :
    s.busRead12.2.cfgLocked = s.cfgLocked := rfl
@[simp] theorem State.busRead12_status (s : State) :
    s.busRead12.2.status = s.status := rfl
@[simp] theorem State.busRead12_prec (s : State) :
    s.busRead12.2.prec = s.prec := rfl
@[simp] theorem State.busRead12_waitLimit (s : State) :
    s.busRead12.2.waitLimit = s.waitLimit := rfl
@[simp] theorem State.busRead12_coord (s : State) :
    s.busRead12.2.coord = s.coord := rfl
@[simp] theorem State.busRead12_raw (s : State) :
    s.busRead12.2.raw = s.raw := rfl
@[simp] theorem State.busRead12_meas (s : State) :
    s.busRead12.2.meas = s.meas := rfl
@[simp] theorem State.busRead12_med (s : State) :
    s.busRead12.2.med = s.med := rfl
@[simp] theorem State.busRead12_xfer (s : State) :
    s.busRead12.2.xfer = s.xfer := rfl
@[simp] theorem State.busRead12_tin (s : State) :
    s.busRead12.2.tin = s.tin := rfl
@[simp] theorem State.busRead12_cal (s : State) :
    s.busRead12.2.cal = s.cal := rfl
@[simp] theorem State.busRead12_calAct (s : State) :
    s.busRead12.2.calAct = s.calAct := rfl
@[simp] theorem State.busRead12_mbuf (s : State) :
    s.busRead12.2.mbuf = s.mbuf := rfl
@[simp] theorem State.busRead12_pins (s : State) :
    s.busRead12.2.pins = s.pins.idleClock := rfl
@[simp] theorem State.busRead12_seq (s : State) :
    s.busRead12.2.seq = s.seq := rfl
@[simp] theorem State.busRead12_accX (s : State) :
    s.busRead12.2.accX = s.accX := rfl
@[simp] theorem State.busRead12_accY (s : State) :
    s.busRead12.2.accY = s.accY := rfl
@[simp] theorem State.busRead12_mvals (s : State) :
    s.busRead12.2.mvals = s.mvals := rfl
@[simp] theorem State.busRead12_rstN (s : State) :
    s.busRead12.2.rstN = s.rstN := rfl
@[simp] theorem State.busRead12_rdata (s : State) :
    s.busRead12.2.rdata = s.rdata := rfl
@[simp] theorem State.busRead12_hist (s : State) :
    s.busRead12.2.hist = s.hist ++ [.read12 s.busRead12.1] := rfl
@[simp] theorem State.busRead12_build (s : State) :
    s.busRead12.2.build = s.build := rfl
@[simp] theorem State.busRead12_reads (s : State) :
    s.busRead12.2.reads = s.reads := rfl
@[simp] theorem State.busRead12_env (s : State) :
    s.busRead12.2.env = (swRead12 s.build.swHalf s.env).env := rfl

/-! ### raiseCmdError -/

@[simp] theorem State.raiseCmdError_cfg (c : ErrCode) (s : State) :
    (s.raiseCmdError c).cfg = s.cfg := rfl
@[simp] theorem State.raiseCmdError_cfgLocked (c : ErrCode) (s : State) :
    (s.raiseCmdError c).cfgLocked = s.cfgLocked := rfl
@[simp] theorem State.raiseCmdError_status (c : ErrCode) (s : State) :
    (s.raiseCmdError c).status = { s.status with err := c } := rfl
@[simp] theorem State.raiseCmdError_prec (c : ErrCode) (s : State) :
    (s.raiseCmdError c).prec = s.prec := rfl
@[simp] theorem State.raiseCmdError_waitLimit (c : ErrCode) (s : State) :
    (s.raiseCmdError c).waitLimit = s.waitLimit := rfl
@[simp] theorem State.raiseCmdError_coord (c : ErrCode) (s : State) :
    (s.raiseCmdError c).coord = s.coord := rfl
@[simp] theorem State.raiseCmdError_raw (c : ErrCode) (s : State) :
    (s.raiseCmdError c).raw = s.raw := rfl
@[simp] theorem State.raiseCmdError_meas (c : ErrCode) (s : State) :
    (s.raiseCmdError c).meas = s.meas := rfl
@[simp] theorem State.raiseCmdError_med (c : ErrCode) (s : State) :
    (s.raiseCmdError c).med = s.med := rfl
@[simp] theorem State.raiseCmdError_xfer (c : ErrCode) (s : State) :
    (s.raiseCmdError c).xfer = s.xfer := rfl
@[simp] theorem State.raiseCmdError_tin (c : ErrCode) (s : State) :
    (s.raiseCmdError c).tin = s.tin := rfl
@[simp] theorem State.raiseCmdError_cal (c : ErrCode) (s : State) :
    (s.raiseCmdError c).cal = s.cal := rfl
@[simp] theorem State.raiseCmdError_calAct (c : ErrCode) (s : State) :
    (s.raiseCmdError c).calAct = s.calAct := rfl
@[simp] theorem State.raiseCmdError_mbuf (c : ErrCode) (s : State) :
    (s.raiseCmdError c).mbuf = s.mbuf := rfl
@[simp] theorem State.raiseCmdError_pins (c : ErrCode) (s : State) :
    (s.raiseCmdError c).pins = s.pins := rfl
@[simp] theorem State.raiseCmdError_seq (c : ErrCode) (s : State) :
    (s.raiseCmdError c).seq = s.seq := rfl
@[simp] theorem State.raiseCmdError_accX (c : ErrCode) (s : State) :
    (s.raiseCmdError c).accX = s.accX := rfl
@[simp] theorem State.raiseCmdError_accY (c : ErrCode) (s : State) :
    (s.raiseCmdError c).accY = s.accY := rfl
@[simp] theorem State.raiseCmdError_mvals (c : ErrCode) (s : State) :
    (s.raiseCmdError c).mvals = s.mvals := rfl
@[simp] theorem State.raiseCmdError_engines (c : ErrCode) (s : State) :
    (s.raiseCmdError c).engines = s.engines := rfl
@[simp] theorem State.raiseCmdError_sync (c : ErrCode) (s : State) :
    (s.raiseCmdError c).sync = s.sync := rfl
@[simp] theorem State.raiseCmdError_rstN (c : ErrCode) (s : State) :
    (s.raiseCmdError c).rstN = s.rstN := rfl
@[simp] theorem State.raiseCmdError_rdata (c : ErrCode) (s : State) :
    (s.raiseCmdError c).rdata = s.rdata := rfl
@[simp] theorem State.raiseCmdError_hist (c : ErrCode) (s : State) :
    (s.raiseCmdError c).hist = s.hist := rfl
@[simp] theorem State.raiseCmdError_build (c : ErrCode) (s : State) :
    (s.raiseCmdError c).build = s.build := rfl
@[simp] theorem State.raiseCmdError_reads (c : ErrCode) (s : State) :
    (s.raiseCmdError c).reads = s.reads := rfl
@[simp] theorem State.raiseCmdError_env (c : ErrCode) (s : State) :
    (s.raiseCmdError c).env = s.env := rfl

/-! ### dropCmd -/

@[simp] theorem State.dropCmd_cfg (s : State) :
    s.dropCmd.cfg = s.cfg := rfl
@[simp] theorem State.dropCmd_cfgLocked (s : State) :
    s.dropCmd.cfgLocked = s.cfgLocked := rfl
@[simp] theorem State.dropCmd_status (s : State) :
    s.dropCmd.status = { s.status with cmdOvr := true } := rfl
@[simp] theorem State.dropCmd_prec (s : State) :
    s.dropCmd.prec = s.prec := rfl
@[simp] theorem State.dropCmd_waitLimit (s : State) :
    s.dropCmd.waitLimit = s.waitLimit := rfl
@[simp] theorem State.dropCmd_coord (s : State) :
    s.dropCmd.coord = s.coord := rfl
@[simp] theorem State.dropCmd_raw (s : State) :
    s.dropCmd.raw = s.raw := rfl
@[simp] theorem State.dropCmd_meas (s : State) :
    s.dropCmd.meas = s.meas := rfl
@[simp] theorem State.dropCmd_med (s : State) :
    s.dropCmd.med = s.med := rfl
@[simp] theorem State.dropCmd_xfer (s : State) :
    s.dropCmd.xfer = s.xfer := rfl
@[simp] theorem State.dropCmd_tin (s : State) :
    s.dropCmd.tin = s.tin := rfl
@[simp] theorem State.dropCmd_cal (s : State) :
    s.dropCmd.cal = s.cal := rfl
@[simp] theorem State.dropCmd_calAct (s : State) :
    s.dropCmd.calAct = s.calAct := rfl
@[simp] theorem State.dropCmd_mbuf (s : State) :
    s.dropCmd.mbuf = s.mbuf := rfl
@[simp] theorem State.dropCmd_pins (s : State) :
    s.dropCmd.pins = s.pins := rfl
@[simp] theorem State.dropCmd_seq (s : State) :
    s.dropCmd.seq = s.seq := rfl
@[simp] theorem State.dropCmd_accX (s : State) :
    s.dropCmd.accX = s.accX := rfl
@[simp] theorem State.dropCmd_accY (s : State) :
    s.dropCmd.accY = s.accY := rfl
@[simp] theorem State.dropCmd_mvals (s : State) :
    s.dropCmd.mvals = s.mvals := rfl
@[simp] theorem State.dropCmd_engines (s : State) :
    s.dropCmd.engines = s.engines := rfl
@[simp] theorem State.dropCmd_sync (s : State) :
    s.dropCmd.sync = s.sync := rfl
@[simp] theorem State.dropCmd_rstN (s : State) :
    s.dropCmd.rstN = s.rstN := rfl
@[simp] theorem State.dropCmd_rdata (s : State) :
    s.dropCmd.rdata = s.rdata := rfl
@[simp] theorem State.dropCmd_hist (s : State) :
    s.dropCmd.hist = s.hist := rfl
@[simp] theorem State.dropCmd_build (s : State) :
    s.dropCmd.build = s.build := rfl
@[simp] theorem State.dropCmd_reads (s : State) :
    s.dropCmd.reads = s.reads := rfl
@[simp] theorem State.dropCmd_env (s : State) :
    s.dropCmd.env = s.env := rfl

/-! ### accept -/

@[simp] theorem State.accept_cfg (i : Instr) (p : Pos) (s : State) :
    (s.accept i p).cfg = s.cfg := rfl
@[simp] theorem State.accept_cfgLocked (i : Instr) (p : Pos) (s : State) :
    (s.accept i p).cfgLocked = (s.cfgLocked || locksCfg i) := rfl
@[simp] theorem State.accept_status (i : Instr) (p : Pos) (s : State) :
    (s.accept i p).status = { s.status with err := .none, busy := true } := rfl
@[simp] theorem State.accept_prec (i : Instr) (p : Pos) (s : State) :
    (s.accept i p).prec = s.prec := rfl
@[simp] theorem State.accept_waitLimit (i : Instr) (p : Pos) (s : State) :
    (s.accept i p).waitLimit = s.waitLimit := rfl
@[simp] theorem State.accept_coord (i : Instr) (p : Pos) (s : State) :
    (s.accept i p).coord = s.coord := rfl
@[simp] theorem State.accept_raw (i : Instr) (p : Pos) (s : State) :
    (s.accept i p).raw = s.raw := rfl
@[simp] theorem State.accept_meas (i : Instr) (p : Pos) (s : State) :
    (s.accept i p).meas = s.meas := rfl
@[simp] theorem State.accept_med (i : Instr) (p : Pos) (s : State) :
    (s.accept i p).med = s.med := rfl
@[simp] theorem State.accept_xfer (i : Instr) (p : Pos) (s : State) :
    (s.accept i p).xfer = s.xfer := rfl
@[simp] theorem State.accept_tin (i : Instr) (p : Pos) (s : State) :
    (s.accept i p).tin = s.tin := rfl
@[simp] theorem State.accept_cal (i : Instr) (p : Pos) (s : State) :
    (s.accept i p).cal = s.cal := rfl
@[simp] theorem State.accept_calAct (i : Instr) (p : Pos) (s : State) :
    (s.accept i p).calAct = s.calAct := rfl
@[simp] theorem State.accept_mbuf (i : Instr) (p : Pos) (s : State) :
    (s.accept i p).mbuf = s.mbuf := rfl
@[simp] theorem State.accept_pins (i : Instr) (p : Pos) (s : State) :
    (s.accept i p).pins = s.pins := rfl
@[simp] theorem State.accept_seq (i : Instr) (p : Pos) (s : State) :
    (s.accept i p).seq = latchOperands i s { s.seq with op := some i.opcode, arg := i.arg, pos := p, i := 0, j := 0, p := 0 } := rfl
@[simp] theorem State.accept_accX (i : Instr) (p : Pos) (s : State) :
    (s.accept i p).accX = s.accX := rfl
@[simp] theorem State.accept_accY (i : Instr) (p : Pos) (s : State) :
    (s.accept i p).accY = s.accY := rfl
@[simp] theorem State.accept_mvals (i : Instr) (p : Pos) (s : State) :
    (s.accept i p).mvals = s.mvals := rfl
@[simp] theorem State.accept_engines (i : Instr) (p : Pos) (s : State) :
    (s.accept i p).engines = s.engines := rfl
@[simp] theorem State.accept_sync (i : Instr) (p : Pos) (s : State) :
    (s.accept i p).sync = s.sync := rfl
@[simp] theorem State.accept_rstN (i : Instr) (p : Pos) (s : State) :
    (s.accept i p).rstN = s.rstN := rfl
@[simp] theorem State.accept_rdata (i : Instr) (p : Pos) (s : State) :
    (s.accept i p).rdata = s.rdata := rfl
@[simp] theorem State.accept_hist (i : Instr) (p : Pos) (s : State) :
    (s.accept i p).hist = s.hist := rfl
@[simp] theorem State.accept_build (i : Instr) (p : Pos) (s : State) :
    (s.accept i p).build = s.build := rfl
@[simp] theorem State.accept_reads (i : Instr) (p : Pos) (s : State) :
    (s.accept i p).reads = s.reads := rfl
@[simp] theorem State.accept_env (i : Instr) (p : Pos) (s : State) :
    (s.accept i p).env = s.env := rfl

/-! ### commit -/

@[simp] theorem State.commit_cfg (c : ErrCode) (s : State) :
    (s.commit c).cfg = s.cfg := rfl
@[simp] theorem State.commit_cfgLocked (c : ErrCode) (s : State) :
    (s.commit c).cfgLocked = s.cfgLocked := rfl
@[simp] theorem State.commit_status (c : ErrCode) (s : State) :
    (s.commit c).status = { s.status with err := c, busy := false } := rfl
@[simp] theorem State.commit_prec (c : ErrCode) (s : State) :
    (s.commit c).prec = s.prec := rfl
@[simp] theorem State.commit_waitLimit (c : ErrCode) (s : State) :
    (s.commit c).waitLimit = s.waitLimit := rfl
@[simp] theorem State.commit_coord (c : ErrCode) (s : State) :
    (s.commit c).coord = s.coord := rfl
@[simp] theorem State.commit_raw (c : ErrCode) (s : State) :
    (s.commit c).raw = s.raw := rfl
@[simp] theorem State.commit_meas (c : ErrCode) (s : State) :
    (s.commit c).meas = s.meas := rfl
@[simp] theorem State.commit_med (c : ErrCode) (s : State) :
    (s.commit c).med = s.med := rfl
@[simp] theorem State.commit_xfer (c : ErrCode) (s : State) :
    (s.commit c).xfer = s.xfer := rfl
@[simp] theorem State.commit_tin (c : ErrCode) (s : State) :
    (s.commit c).tin = s.tin := rfl
@[simp] theorem State.commit_cal (c : ErrCode) (s : State) :
    (s.commit c).cal = s.cal := rfl
@[simp] theorem State.commit_calAct (c : ErrCode) (s : State) :
    (s.commit c).calAct = s.calAct := rfl
@[simp] theorem State.commit_mbuf (c : ErrCode) (s : State) :
    (s.commit c).mbuf = s.mbuf := rfl
@[simp] theorem State.commit_pins (c : ErrCode) (s : State) :
    (s.commit c).pins = s.pins := rfl
@[simp] theorem State.commit_seq (c : ErrCode) (s : State) :
    (s.commit c).seq = { s.seq with op := none, pos := .idle } := rfl
@[simp] theorem State.commit_accX (c : ErrCode) (s : State) :
    (s.commit c).accX = s.accX := rfl
@[simp] theorem State.commit_accY (c : ErrCode) (s : State) :
    (s.commit c).accY = s.accY := rfl
@[simp] theorem State.commit_mvals (c : ErrCode) (s : State) :
    (s.commit c).mvals = s.mvals := rfl
@[simp] theorem State.commit_engines (c : ErrCode) (s : State) :
    (s.commit c).engines = s.engines := rfl
@[simp] theorem State.commit_sync (c : ErrCode) (s : State) :
    (s.commit c).sync = s.sync := rfl
@[simp] theorem State.commit_rstN (c : ErrCode) (s : State) :
    (s.commit c).rstN = s.rstN := rfl
@[simp] theorem State.commit_rdata (c : ErrCode) (s : State) :
    (s.commit c).rdata = s.rdata := rfl
@[simp] theorem State.commit_hist (c : ErrCode) (s : State) :
    (s.commit c).hist = s.hist := rfl
@[simp] theorem State.commit_build (c : ErrCode) (s : State) :
    (s.commit c).build = s.build := rfl
@[simp] theorem State.commit_reads (c : ErrCode) (s : State) :
    (s.commit c).reads = s.reads := rfl
@[simp] theorem State.commit_env (c : ErrCode) (s : State) :
    (s.commit c).env = s.env := rfl

/-! ### accumulate -/

@[simp] theorem State.accumulate_cfg (v : Sample) (s : State) :
    (s.accumulate v).cfg = s.cfg := rfl
@[simp] theorem State.accumulate_cfgLocked (v : Sample) (s : State) :
    (s.accumulate v).cfgLocked = s.cfgLocked := rfl
@[simp] theorem State.accumulate_status (v : Sample) (s : State) :
    (s.accumulate v).status = s.status := rfl
@[simp] theorem State.accumulate_prec (v : Sample) (s : State) :
    (s.accumulate v).prec = s.prec := rfl
@[simp] theorem State.accumulate_waitLimit (v : Sample) (s : State) :
    (s.accumulate v).waitLimit = s.waitLimit := rfl
@[simp] theorem State.accumulate_coord (v : Sample) (s : State) :
    (s.accumulate v).coord = s.coord := rfl
@[simp] theorem State.accumulate_raw (v : Sample) (s : State) :
    (s.accumulate v).raw = s.raw := rfl
@[simp] theorem State.accumulate_meas (v : Sample) (s : State) :
    (s.accumulate v).meas = s.meas := rfl
@[simp] theorem State.accumulate_med (v : Sample) (s : State) :
    (s.accumulate v).med = s.med := rfl
@[simp] theorem State.accumulate_xfer (v : Sample) (s : State) :
    (s.accumulate v).xfer = s.xfer := rfl
@[simp] theorem State.accumulate_tin (v : Sample) (s : State) :
    (s.accumulate v).tin = s.tin := rfl
@[simp] theorem State.accumulate_cal (v : Sample) (s : State) :
    (s.accumulate v).cal = s.cal := rfl
@[simp] theorem State.accumulate_calAct (v : Sample) (s : State) :
    (s.accumulate v).calAct = s.calAct := rfl
@[simp] theorem State.accumulate_mbuf (v : Sample) (s : State) :
    (s.accumulate v).mbuf = s.mbuf := rfl
@[simp] theorem State.accumulate_pins (v : Sample) (s : State) :
    (s.accumulate v).pins = s.pins := rfl
@[simp] theorem State.accumulate_seq (v : Sample) (s : State) :
    (s.accumulate v).seq = s.seq := rfl
@[simp] theorem State.accumulate_accX (v : Sample) (s : State) :
    (s.accumulate v).accX = s.accX + v.x.setWidth 20 := rfl
@[simp] theorem State.accumulate_accY (v : Sample) (s : State) :
    (s.accumulate v).accY = s.accY + v.y.setWidth 20 := rfl
@[simp] theorem State.accumulate_mvals (v : Sample) (s : State) :
    (s.accumulate v).mvals = s.mvals := rfl
@[simp] theorem State.accumulate_engines (v : Sample) (s : State) :
    (s.accumulate v).engines = s.engines := rfl
@[simp] theorem State.accumulate_sync (v : Sample) (s : State) :
    (s.accumulate v).sync = s.sync := rfl
@[simp] theorem State.accumulate_rstN (v : Sample) (s : State) :
    (s.accumulate v).rstN = s.rstN := rfl
@[simp] theorem State.accumulate_rdata (v : Sample) (s : State) :
    (s.accumulate v).rdata = s.rdata := rfl
@[simp] theorem State.accumulate_hist (v : Sample) (s : State) :
    (s.accumulate v).hist = s.hist := rfl
@[simp] theorem State.accumulate_build (v : Sample) (s : State) :
    (s.accumulate v).build = s.build := rfl
@[simp] theorem State.accumulate_reads (v : Sample) (s : State) :
    (s.accumulate v).reads = s.reads := rfl
@[simp] theorem State.accumulate_env (v : Sample) (s : State) :
    (s.accumulate v).env = s.env := rfl

/-! ### setScript -/

@[simp] theorem State.setScript_cfg (l : List HostAction) (s : State) :
    (s.setScript l).cfg = s.cfg := rfl
@[simp] theorem State.setScript_cfgLocked (l : List HostAction) (s : State) :
    (s.setScript l).cfgLocked = s.cfgLocked := rfl
@[simp] theorem State.setScript_status (l : List HostAction) (s : State) :
    (s.setScript l).status = s.status := rfl
@[simp] theorem State.setScript_prec (l : List HostAction) (s : State) :
    (s.setScript l).prec = s.prec := rfl
@[simp] theorem State.setScript_waitLimit (l : List HostAction) (s : State) :
    (s.setScript l).waitLimit = s.waitLimit := rfl
@[simp] theorem State.setScript_coord (l : List HostAction) (s : State) :
    (s.setScript l).coord = s.coord := rfl
@[simp] theorem State.setScript_raw (l : List HostAction) (s : State) :
    (s.setScript l).raw = s.raw := rfl
@[simp] theorem State.setScript_meas (l : List HostAction) (s : State) :
    (s.setScript l).meas = s.meas := rfl
@[simp] theorem State.setScript_med (l : List HostAction) (s : State) :
    (s.setScript l).med = s.med := rfl
@[simp] theorem State.setScript_xfer (l : List HostAction) (s : State) :
    (s.setScript l).xfer = s.xfer := rfl
@[simp] theorem State.setScript_tin (l : List HostAction) (s : State) :
    (s.setScript l).tin = s.tin := rfl
@[simp] theorem State.setScript_cal (l : List HostAction) (s : State) :
    (s.setScript l).cal = s.cal := rfl
@[simp] theorem State.setScript_calAct (l : List HostAction) (s : State) :
    (s.setScript l).calAct = s.calAct := rfl
@[simp] theorem State.setScript_mbuf (l : List HostAction) (s : State) :
    (s.setScript l).mbuf = s.mbuf := rfl
@[simp] theorem State.setScript_pins (l : List HostAction) (s : State) :
    (s.setScript l).pins = s.pins := rfl
@[simp] theorem State.setScript_seq (l : List HostAction) (s : State) :
    (s.setScript l).seq = s.seq := rfl
@[simp] theorem State.setScript_accX (l : List HostAction) (s : State) :
    (s.setScript l).accX = s.accX := rfl
@[simp] theorem State.setScript_accY (l : List HostAction) (s : State) :
    (s.setScript l).accY = s.accY := rfl
@[simp] theorem State.setScript_mvals (l : List HostAction) (s : State) :
    (s.setScript l).mvals = s.mvals := rfl
@[simp] theorem State.setScript_engines (l : List HostAction) (s : State) :
    (s.setScript l).engines = s.engines := rfl
@[simp] theorem State.setScript_sync (l : List HostAction) (s : State) :
    (s.setScript l).sync = s.sync := rfl
@[simp] theorem State.setScript_rstN (l : List HostAction) (s : State) :
    (s.setScript l).rstN = s.rstN := rfl
@[simp] theorem State.setScript_rdata (l : List HostAction) (s : State) :
    (s.setScript l).rdata = s.rdata := rfl
@[simp] theorem State.setScript_hist (l : List HostAction) (s : State) :
    (s.setScript l).hist = s.hist := rfl
@[simp] theorem State.setScript_build (l : List HostAction) (s : State) :
    (s.setScript l).build = s.build := rfl
@[simp] theorem State.setScript_reads (l : List HostAction) (s : State) :
    (s.setScript l).reads = s.reads := rfl
@[simp] theorem State.setScript_env (l : List HostAction) (s : State) :
    (s.setScript l).env = { s.env with script := l } := rfl

/-! ### gotRead -/

@[simp] theorem State.gotRead_cfg (a : Byte) (w : Word) (s : State) :
    (s.gotRead a w).cfg = s.cfg := rfl
@[simp] theorem State.gotRead_cfgLocked (a : Byte) (w : Word) (s : State) :
    (s.gotRead a w).cfgLocked = s.cfgLocked := rfl
@[simp] theorem State.gotRead_status (a : Byte) (w : Word) (s : State) :
    (s.gotRead a w).status = s.status := rfl
@[simp] theorem State.gotRead_prec (a : Byte) (w : Word) (s : State) :
    (s.gotRead a w).prec = s.prec := rfl
@[simp] theorem State.gotRead_waitLimit (a : Byte) (w : Word) (s : State) :
    (s.gotRead a w).waitLimit = s.waitLimit := rfl
@[simp] theorem State.gotRead_coord (a : Byte) (w : Word) (s : State) :
    (s.gotRead a w).coord = s.coord := rfl
@[simp] theorem State.gotRead_raw (a : Byte) (w : Word) (s : State) :
    (s.gotRead a w).raw = s.raw := rfl
@[simp] theorem State.gotRead_meas (a : Byte) (w : Word) (s : State) :
    (s.gotRead a w).meas = s.meas := rfl
@[simp] theorem State.gotRead_med (a : Byte) (w : Word) (s : State) :
    (s.gotRead a w).med = s.med := rfl
@[simp] theorem State.gotRead_xfer (a : Byte) (w : Word) (s : State) :
    (s.gotRead a w).xfer = s.xfer := rfl
@[simp] theorem State.gotRead_tin (a : Byte) (w : Word) (s : State) :
    (s.gotRead a w).tin = s.tin := rfl
@[simp] theorem State.gotRead_cal (a : Byte) (w : Word) (s : State) :
    (s.gotRead a w).cal = s.cal := rfl
@[simp] theorem State.gotRead_calAct (a : Byte) (w : Word) (s : State) :
    (s.gotRead a w).calAct = s.calAct := rfl
@[simp] theorem State.gotRead_mbuf (a : Byte) (w : Word) (s : State) :
    (s.gotRead a w).mbuf = s.mbuf := rfl
@[simp] theorem State.gotRead_pins (a : Byte) (w : Word) (s : State) :
    (s.gotRead a w).pins = s.pins := rfl
@[simp] theorem State.gotRead_seq (a : Byte) (w : Word) (s : State) :
    (s.gotRead a w).seq = s.seq := rfl
@[simp] theorem State.gotRead_accX (a : Byte) (w : Word) (s : State) :
    (s.gotRead a w).accX = s.accX := rfl
@[simp] theorem State.gotRead_accY (a : Byte) (w : Word) (s : State) :
    (s.gotRead a w).accY = s.accY := rfl
@[simp] theorem State.gotRead_mvals (a : Byte) (w : Word) (s : State) :
    (s.gotRead a w).mvals = s.mvals := rfl
@[simp] theorem State.gotRead_engines (a : Byte) (w : Word) (s : State) :
    (s.gotRead a w).engines = s.engines := rfl
@[simp] theorem State.gotRead_sync (a : Byte) (w : Word) (s : State) :
    (s.gotRead a w).sync = s.sync := rfl
@[simp] theorem State.gotRead_rstN (a : Byte) (w : Word) (s : State) :
    (s.gotRead a w).rstN = s.rstN := rfl
@[simp] theorem State.gotRead_rdata (a : Byte) (w : Word) (s : State) :
    (s.gotRead a w).rdata = w := rfl
@[simp] theorem State.gotRead_hist (a : Byte) (w : Word) (s : State) :
    (s.gotRead a w).hist = s.hist := rfl
@[simp] theorem State.gotRead_build (a : Byte) (w : Word) (s : State) :
    (s.gotRead a w).build = s.build := rfl
@[simp] theorem State.gotRead_reads (a : Byte) (w : Word) (s : State) :
    (s.gotRead a w).reads = s.reads ++ [(a, w)] := rfl
@[simp] theorem State.gotRead_env (a : Byte) (w : Word) (s : State) :
    (s.gotRead a w).env = s.env := rfl

end Sys2Proof.Machine
end

