-- ==== Sys2Proof/Laws/Ops.lean ====
section
/-! SUPPORT. What each shared operation can do, said once: draws leave the script alone, a primitive
changes only the serial side, and the steps of `readAxis` and `readRaw` are primitives between which
the sequencer moves. -/

namespace Sys2Proof.Machine

/-! ### Draws -/

@[simp] theorem Env.takeMiso_script (e : Env) : e.takeMiso.2.script = e.script := by
  unfold Env.takeMiso; split <;> rfl

@[simp] theorem Env.takePen_script (e : Env) : e.takePen.2.script = e.script := by
  unfold Env.takePen; split <;> rfl

@[simp] theorem Env.takePins_script (e : Env) : e.takePins.2.script = e.script := by
  unfold Env.takePins; split <;> rfl

@[simp] theorem Env.spendHostMove_script (e : Env) (n : Nat) :
    (e.spendHostMove n).2.script = e.script := by
  cases n <;> rfl

@[simp] theorem Env.takeTurn_script (e : Env) : e.takeTurn.2.script = e.script := by
  unfold Env.takeTurn; split
  · rfl
  · split <;> simp

/-- A turn changes no input but those for the order (entry 4). -/
theorem Env.takeTurn_frame (e : Env) :
    e.takeTurn.2 = { e with
      turns := e.takeTurn.2.turns, hostMoves := e.takeTurn.2.hostMoves
      fresh := e.takeTurn.2.fresh } := by
  unfold Env.takeTurn; split
  · rfl
  · split
    · rename_i n _; cases n <;> rfl
    · cases Config.freeHostMoves e.fresh <;> rfl

/-- A read of PINS takes no input but its own (R53). -/
theorem Env.takePins_frame (e : Env) :
    e.takePins.2 = { e with pins := e.takePins.2.pins, freshPins := e.takePins.2.freshPins } := by
  unfold Env.takePins; split <;> rfl

/-- A host's turn past the list of turns has a move of the host's number spent (R298): the number left
is smaller, or there was none. -/
theorem Env.takeTurn_host {e e' : Env} (h : e.takeTurn = (.host, e')) :
    (∃ rest, e.turns = .host :: rest ∧ e' = { e with turns := rest }) ∨
      (e.turns = [] ∧ ∃ n, e'.turns = [] ∧ e'.hostMoves = some n ∧
        ∀ m, e.hostMoves = some m → m = n + 1) := by
  unfold Env.takeTurn at h
  split at h
  · rename_i a rest ht
    cases h; exact .inl ⟨rest, ht, rfl⟩
  · rename_i ht
    refine .inr ⟨ht, ?_⟩
    split at h
    · rename_i n hn
      cases n with
      | zero => simp [Env.spendHostMove] at h
      | succ n =>
        simp only [Env.spendHostMove, Prod.mk.injEq, true_and] at h
        subst h; exact ⟨n, ht, rfl, fun m hm => by rw [hn] at hm; exact (Option.some.inj hm).symm⟩
    · rename_i hn
      generalize Config.freeHostMoves e.fresh = k at h
      cases k with
      | zero => simp [Env.spendHostMove] at h
      | succ n =>
        simp only [Env.spendHostMove, Prod.mk.injEq, true_and] at h
        subst h; exact ⟨n, ht, rfl, fun m hm => by rw [hn] at hm; cases hm⟩

theorem hwClock_script (d : Nat) (o : Byte) (k : Nat) (i : Byte) (e : Env) :
    (hwClock d o k i e).env.script = e.script := by
  induction k generalizing i e with
  | zero => rfl
  | succ k ih => simp [hwClock, ih]

theorem swClock_script (d : Nat) (o : Byte) (k : Nat) (i : Byte) (e : Env) :
    (swClock d o k i e).env.script = e.script := by
  induction k generalizing i e with
  | zero => rfl
  | succ k ih => simp [swClock, ih]

theorem read12Clock_script (d : Nat) (k : Nat) (v : U12) (e : Env) :
    (read12Clock d k v e).env.script = e.script := by
  induction k generalizing v e with
  | zero => rfl
  | succ k ih => simp [read12Clock, ih]

@[simp] theorem swRead12_script (d : Nat) (e : Env) : (swRead12 d e).env.script = e.script :=
  read12Clock_script d 12 0#12 e

@[simp] theorem State.exchange_script (s : State) (o : Byte) :
    (s.exchange o).env.script = s.env.script := by
  unfold State.exchange hwExchange swExchange
  split
  · exact hwClock_script ..
  · exact swClock_script ..

/-- The two engines clock the same bits (R105): only the time differs. -/
theorem swClock_eq_hwClock (d h : Nat) (o : Byte) (k : Nat) (i : Byte) (e : Env) :
    (swClock h o k i e).rx = (hwClock d o k i e).rx ∧
      (swClock h o k i e).env = (hwClock d o k i e).env := by
  induction k generalizing i e with
  | zero => exact ⟨rfl, rfl⟩
  | succ k ih => simpa [swClock, hwClock] using ih ..

@[simp] theorem Pins.idleClock_csN (p : Pins) : p.idleClock.csN = p.csN := rfl
@[simp] theorem Pins.idleClock_sclk (p : Pins) : p.idleClock.sclk = false := rfl
@[simp] theorem Pins.idleClock_mosi (p : Pins) : p.idleClock.mosi = false := rfl
@[simp] theorem Pins.idleClock_oe (p : Pins) : p.idleClock.oe = p.oe := rfl

/-! ### One primitive of the serial side -/

/-- `t` is `s` but for the serial side: inputs taken, events recorded, lines, engine registers and the
partial results of a sample (R57: no register). The script and `ts_oe` stay, and the serial clock and
data end low where they were low (R104). -/
structure SerialStep (s t : State) : Prop where
  frame : t = { s with
    env := t.env, hist := t.hist, pins := t.pins, engines := t.engines, sync := t.sync
    seq := { s.seq with
      res := { s.seq.res with
        byte := t.seq.res.byte, axis := t.seq.res.axis, x := t.seq.res.x, y := t.seq.res.y } } }
  script : t.env.script = s.env.script
  oe : t.pins.oe = s.pins.oe
  low : s.pins.sclk = false ∧ s.pins.mosi = false → t.pins.sclk = false ∧ t.pins.mosi = false

theorem SerialStep.rfl' (s : State) : SerialStep s s := ⟨rfl, rfl, rfl, id⟩

theorem SerialStep.trans {s t u : State} (h : SerialStep s t) (k : SerialStep t u) :
    SerialStep s u where
  frame := by
    have hk := k.frame
    rw [h.frame] at hk
    exact hk
  script := k.script.trans h.script
  oe := k.oe.trans h.oe
  low := k.low ∘ h.low

theorem State.setCs_serial (a : Bool) (s : State) : SerialStep s (s.setCs a) :=
  ⟨rfl, rfl, rfl, id⟩

theorem State.settle_serial (s : State) : SerialStep s s.settle := ⟨rfl, rfl, rfl, id⟩

theorem State.busXfer_serial (o : Byte) (s : State) : SerialStep s (s.busXfer o).2 :=
  ⟨rfl, by simp, rfl, fun _ => ⟨rfl, rfl⟩⟩

theorem State.busRead12_serial (s : State) : SerialStep s s.busRead12.2 :=
  ⟨rfl, by simp, rfl, fun _ => ⟨rfl, rfl⟩⟩

theorem State.penSample_serial (s : State) : SerialStep s s.penSample.2 :=
  ⟨rfl, by simp, rfl, id⟩

theorem State.keepX_serial (v : U12) (s : State) :
    SerialStep s (s.keep fun r => { r with x := v }) := ⟨rfl, rfl, rfl, id⟩

theorem State.keepY_serial (v : U12) (s : State) :
    SerialStep s (s.keep fun r => { r with y := v }) := ⟨rfl, rfl, rfl, id⟩

theorem State.keepAxis_serial (v : U12) (s : State) :
    SerialStep s (s.keep fun r => { r with axis := v }) := ⟨rfl, rfl, rfl, id⟩

theorem State.keepByte_serial (v : Byte) (s : State) :
    SerialStep s (s.keep fun r => { r with byte := v }) := ⟨rfl, rfl, rfl, id⟩

/-- A step of `readAxis` is one primitive, and leaves chip select alone (R107). -/
theorem State.axisStep_serial (c : Byte) (p : AxisPos) (s : State) :
    SerialStep s (s.axisStep c p).2 ∧ (s.axisStep c p).2.pins.csN = s.pins.csN := by
  cases p with
  | command => exact ⟨s.busXfer_serial c, rfl⟩
  | settle => exact ⟨s.settle_serial, rfl⟩
  | highByte => exact ⟨(s.busXfer_serial 0#8).trans (State.keepByte_serial _ _), rfl⟩
  | lowByte => exact ⟨s.busXfer_serial 0#8, rfl⟩
  | read12 => exact ⟨s.busRead12_serial, rfl⟩

/-- `readAxis` goes from a position of the mode to a position of the mode (R136). -/
theorem State.axisStep_pos {c : Byte} {p q : AxisPos} {s : State}
    (h : (s.axisStep c p).1 = .step q) : axisPosOk s.status.modeEff p = true →
    axisPosOk s.status.modeEff q = true := by
  intro hp
  cases p <;> simp only [State.axisStep, AxisNext.step.injEq, reduceCtorEq] at h
  · subst h; rfl
  · subst h; split <;> simp_all [axisPosOk]
  · subst h; exact hp

/-- One step of `readRaw` (R137): it begins, goes on with chip select unchanged, or ends. -/
theorem State.rawStep_cases (u : Use) (p : RawPos) (done : Sample → State → State) (s : State) :
    (p = .csOn ∧ s.rawStep u p done = (s.setCs true).goto (.raw u (.x .command))) ∨
    (p = .csOff ∧ s.rawStep u p done = done ⟨s.seq.res.x, s.seq.res.y⟩ (s.setCs false)) ∨
    (p ≠ .csOn ∧ p ≠ .csOff ∧ ∃ t q, s.rawStep u p done = t.goto (.raw u q) ∧ SerialStep s t ∧
      t.pins.csN = s.pins.csN ∧ q ≠ .csOn ∧
      (rawPosOk s.status.modeEff p = true → rawPosOk s.status.modeEff q = true)) := by
  cases p with
  | csOn => exact .inl ⟨rfl, rfl⟩
  | csOff => exact .inr (.inl ⟨rfl, rfl⟩)
  | x a =>
    refine .inr (.inr ⟨nofun, nofun, ?_⟩)
    obtain ⟨hs, hc⟩ := s.axisStep_serial s.build.cmdX a
    simp only [State.rawStep]
    split
    · next q t h =>
      rw [h] at hs hc
      exact ⟨t, .x q, rfl, hs, hc, nofun, fun hp => State.axisStep_pos (by rw [h]) hp⟩
    · next v t h =>
      rw [h] at hs hc
      exact ⟨_, .y .command, rfl, hs.trans (t.keepX_serial v), hc, nofun, fun _ => rfl⟩
  | y a =>
    refine .inr (.inr ⟨nofun, nofun, ?_⟩)
    obtain ⟨hs, hc⟩ := s.axisStep_serial s.build.cmdY a
    simp only [State.rawStep]
    split
    · next q t h =>
      rw [h] at hs hc
      exact ⟨t, .y q, rfl, hs, hc, nofun, fun hp => State.axisStep_pos (by rw [h]) hp⟩
    · next v t h =>
      rw [h] at hs hc
      exact ⟨_, .csOff, rfl, hs.trans (t.keepY_serial v), hc, nofun, fun _ => rfl⟩

/-! ### Commands -/

/-- A command in flight takes its own step. -/
theorem State.command_inFlight {i : Instr} {start : Pos} {body : State → Option State} {s t : State}
    (busy : s.status.busy = true) (own : s.seq.inFlight = some i) (h : body s = some t) :
    s.command i start body = .next t := by
  simp [State.command, busy, own, h]

/-- A command written while the block is idle is submitted (R84). -/
theorem State.command_idle {i : Instr} {start : Pos} {body : State → Option State} {s : State}
    (idle : s.status.busy = false) : s.command i start body = .next (s.submit i start) := by
  simp [State.command, idle]

/-- What a command can answer (R84, R85): submitted, one step of its own, dropped, or a position that
is not its own. -/
theorem State.command_cases (i : Instr) (start : Pos) (body : State → Option State) (s : State) :
    (s.status.busy = false ∧ s.command i start body = .next (s.submit i start)) ∨
    (s.status.busy = true ∧ s.seq.inFlight = some i ∧
      ((∃ t, body s = some t ∧ s.command i start body = .next t) ∨
        (body s = none ∧ s.command i start body = .fault .foreignPosition))) ∨
    (s.status.busy = true ∧ s.seq.inFlight ≠ some i ∧
      s.command i start body = .next s.dropCmd) := by
  unfold State.command
  cases hb : s.status.busy
  · exact .inl ⟨rfl, by simp⟩
  · by_cases ho : s.seq.inFlight = some i
    · refine .inr (.inl ⟨rfl, ho, ?_⟩)
      cases hs : body s
      · exact .inr ⟨rfl, by simp [ho]⟩
      · exact .inl ⟨_, rfl, by simp [ho]⟩
    · exact .inr (.inr ⟨rfl, ho, by simp [ho]⟩)

end Sys2Proof.Machine
end

