-- ==== Sys2Proof/Laws/Invariant.lean ====
section
/-! SUPPORT. What each shared operation does to the invariant of Safety, said once: the primitives and
the sequencer's moves keep it while a command is in flight, a commit restores its idle form, and an
acceptance, a refusal, a register write, a read and a reset keep it. -/

namespace Sys2Proof.Machine

/-! ### A command in flight -/

/-- What every step of a command in flight leaves alone: the command, STATUS, the configuration, PREC,
the build, and the idle levels of the serial lines (R71, R104). -/
structure Steady (s u : State) : Prop where
  op : u.seq.op = s.seq.op
  arg : u.seq.arg = s.seq.arg
  status : u.status = s.status
  build : u.build = s.build
  prec : u.prec = s.prec
  cfg : u.cfg = s.cfg
  cfgLocked : u.cfgLocked = s.cfgLocked
  rstN : u.rstN = s.rstN
  oe : u.pins.oe = s.pins.oe
  low : s.pins.sclk = false ∧ s.pins.mosi = false → u.pins.sclk = false ∧ u.pins.mosi = false

theorem SerialStep.steady {s t : State} (h : SerialStep s t) : Steady s t := by
  have hf := h.frame
  constructor <;> first | exact h.oe | exact h.low | (rw [hf])

theorem Steady.of_goto {s t : State} {p : Pos} (st : Steady s t) : Steady s (t.goto p) :=
  ⟨st.op, st.arg, st.status, st.build, st.prec, st.cfg, st.cfgLocked, st.rstN, st.oe, st.low⟩

theorem Steady.of_keep {s t : State} {f : Results → Results} (st : Steady s t) :
    Steady s (t.keep f) :=
  ⟨st.op, st.arg, st.status, st.build, st.prec, st.cfg, st.cfgLocked, st.rstN, st.oe, st.low⟩

/-- A steady step keeps every clause but those about the command in flight. -/
theorem Steady.inv {s u : State} {i : Instr} (st : Steady s u) (h : s.Inv)
    (hb : s.status.busy = true)
    (hi : s.seq.inFlight = some i) (ok : u.InFlightOk i) : u.Inv where
  build := st.build ▸ h.build
  clockIdle := st.low h.clockIdle
  driven := by rw [st.oe, st.status, h.driven]
  mode := by rw [st.status, h.mode]
  held := by rw [st.status]; exact h.held
  precision := by rw [st.prec]; exact h.precision
  count := by rw [st.status, st.build]; exact h.count
  complete := by rw [st.status, st.build]; exact h.complete
  idle := by rw [st.status, hb]; nofun
  inFlight := fun _ => ⟨st.rstN.trans (h.inFlight hb).1, i, by
    simpa [Seq.inFlight, st.op, st.arg] using hi, ok⟩
  heldReset := by rw [st.rstN, (h.inFlight hb).1]; nofun

/-- While a command is in flight only the clauses about its position and its counters can change. -/
theorem State.InFlightOk.move {s u : State} {i : Instr} (ok : s.InFlightOk i) (st : Steady s u)
    (position : posOk s.cfg.useIrq s.status.modeEff i u.seq.pos = true)
    (chipSelect : u.pins.csN = csLevel s.status.csHeld i u.seq.pos)
    (measuring : gathers i = true → u.seq.i < s.build.mMax)
    (sampling : ∀ p, u.seq.pos = .raw .sample p →
    1 ≤ u.seq.j ∧ u.seq.j ≤ s.prec.toNat ∧
      u.accX.toNat ≤ (u.seq.j - 1) * 4095 ∧ u.accY.toNat ≤ (u.seq.j - 1) * 4095)
    (polling : waits i = true → u.seq.pos ≠ .commit → u.seq.limit ≠ 0#32 →
        u.seq.p < u.seq.limit.toNat)
    (finished : u.seq.pos = .commit → commitsGather u.seq.res.gate i = true →
    u.seq.res.complete = true → u.taken = s.build.mMax) : u.InFlightOk i where
  position := by rw [st.cfg, st.status]; exact position
  initialised := by rw [st.status]; exact ok.initialised
  busFree := by rw [st.status, st.cfg]; exact ok.busFree
  locked := by rw [st.status, st.cfgLocked]; exact ok.locked
  firstInit := by rw [st.status]; exact ok.firstInit
  legalArg := ok.legalArg
  noError := by rw [st.status]; exact ok.noError
  chipSelect := by rw [st.status]; exact chipSelect
  measuring := by rw [st.build]; exact measuring
  sampling := by rw [st.prec]; exact sampling
  polling := polling
  finished := by rw [st.build]; exact finished

/-- A commit leads back to the idle form of the invariant (R86). -/
theorem commit_inv {s u : State} {c : ErrCode} (h : s.Inv) (hb : s.status.busy = true)
    (hbuild : u.build = s.build)
    (hlow : u.pins.sclk = false ∧ u.pins.mosi = false)
    (hoe : u.pins.oe = u.status.initDone)
    (hmode : u.status.modeEff.isSome = u.status.initDone)
    (hheld : u.status.csHeld = true → u.status.initDone = true)
    (hprec : u.prec ≠ 0#8)
    (hcount : u.status.nMeas.toNat ≤ s.build.mMax)
    (hcomplete : u.status.complete = true → u.status.nMeas.toNat = s.build.mMax)
    (hlocked : u.cfgLocked = u.status.initDone)
    (hcs : u.pins.csN = !u.status.csHeld)
    (hrst : u.rstN = s.rstN) : (u.commit c).Inv where
  build := by simpa [hbuild] using h.build
  clockIdle := by simpa using hlow
  driven := by simpa using hoe
  mode := by simpa using hmode
  held := by simpa using hheld
  precision := by simpa using hprec
  count := by simpa [hbuild] using hcount
  complete := by simpa [hbuild] using hcomplete
  idle := by simp [hlocked, hcs]
  inFlight := by simp
  heldReset := by simp [hrst, (h.inFlight hb).1]

theorem posOk_raw {b m i u p q} (h : posOk b m i (.raw u p) = true) (hq : rawPosOk m p = true →
    rawPosOk m q = true) :
    posOk b m i (.raw u q) = true := by
  cases i <;> simp_all [posOk, commitOnly, csPosOk, exchangePosOk, readAxisPosOk, sampledPosOk]

theorem posOk_rawPos {b m i u p} (h : posOk b m i (.raw u p) = true) : rawPosOk m p = true := by
  cases i <;> simp_all [posOk, commitOnly, csPosOk, exchangePosOk, readAxisPosOk, sampledPosOk]

/-- A step of `readRaw` keeps the invariant if the computation around its last one does (R137). -/
theorem raw_inv {s : State} {i : Instr} {u : Use} {p : RawPos} {done : Sample → State → State}
    (h : s.Inv) (hb : s.status.busy = true) (hi : s.seq.inFlight = some i) (ok : s.InFlightOk i)
    (hpos : s.seq.pos = .raw u p)
    (hdone : p = .csOff → (done ⟨s.seq.res.x, s.seq.res.y⟩ (s.setCs false)).Inv) :
    (s.rawStep u p done).Inv := by
  have hp := ok.position
  rw [hpos] at hp
  have hc := ok.chipSelect
  rw [hpos] at hc
  obtain ⟨rfl, e⟩ | ⟨rfl, e⟩ | ⟨h1, h2, t, q, e, ss, hcs, hq1, hq⟩ := s.rawStep_cases u p done
  · rw [e]
    have st0 := (s.setCs_serial true).steady
    have st : Steady s ((s.setCs true).goto (.raw u (.x .command))) := ⟨st0.op, st0.arg,
        st0.status, st0.build, st0.prec, st0.cfg, st0.cfgLocked, st0.rstN, st0.oe, st0.low⟩
    refine st.inv h hb hi (ok.move st ?_ rfl ok.measuring ?_ ?_ nofun)
    · exact posOk_raw hp fun _ => rfl
    · intro p hp'
      simp at hp'
      obtain ⟨rfl, rfl⟩ := hp'
      exact ok.sampling _ hpos
    · intro hw _ hl
      exact ok.polling hw (by simp [hpos]) hl
  · rw [e]; exact hdone rfl
  · rw [e]
    have st0 := ss.steady
    have hf := ss.frame
    have st : Steady s (t.goto (.raw u q)) := ⟨st0.op, st0.arg, st0.status, st0.build, st0.prec,
        st0.cfg, st0.cfgLocked, st0.rstN, st0.oe, st0.low⟩
    refine st.inv h hb hi (ok.move st ?_ ?_ ?_ ?_ ?_ nofun)
    · exact posOk_raw hp hq
    · have : s.pins.csN = false := by rw [hc]; cases p <;> first | exact absurd rfl h1 | rfl
      refine hcs.trans (this.trans ?_)
      cases q <;> first | exact absurd rfl hq1 | rfl
    · intro hg; have := ok.measuring hg; rw [hf]; exact this
    · intro p hp'
      simp at hp'
      obtain ⟨rfl, rfl⟩ := hp'
      have := ok.sampling _ hpos
      rw [hf]; exact this
    · intro hw _ hl
      have := ok.polling hw (by simp [hpos])
      rw [hf] at hl ⊢; exact this hl

/-- A command inside a transaction of its own is a transaction command (R87, R254). -/
theorem csOff_held {s : State} {i u} (ok : s.InFlightOk i) (hpos : s.seq.pos = .raw u p) :
    isTransaction s.cfg.useIrq i = true := by
  have hp := ok.position
  rw [hpos] at hp
  revert hp; cases i <;> simp [posOk, commitOnly, csPosOk, exchangePosOk, readAxisPosOk,
      sampledPosOk, isTransaction] <;> intros <;> simp_all

theorem discardDone_inv {s : State} {i : Instr} (h : s.Inv) (hb : s.status.busy = true)
    (hi : s.seq.inFlight = some i) (ok : s.InFlightOk i)
    (hpos : s.seq.pos = .raw .discard .csOff) : (discardDone (s.setCs false)).Inv := by
  have hp := ok.position
  rw [hpos] at hp
  have hf := ok.busFree (csOff_held ok hpos)
  have st : Steady s (discardDone (s.setCs false)) := ⟨rfl, rfl, rfl, rfl, rfl, rfl, rfl, rfl,
      rfl, id⟩
  refine st.inv h hb hi (ok.move st ?_ ?_ ok.measuring ?_ ?_ nofun)
  · simp [discardDone]
    cases i <;> simp_all [posOk, commitOnly, csPosOk, exchangePosOk, readAxisPosOk, sampledPosOk,
        rawPosOk]
  · simp [discardDone, csLevel]
  · intro p hp
    have hprec := h.precision
    simp [discardDone]
    have : s.prec.toNat ≠ 0 := fun h0 => hprec (BitVec.eq_of_toNat_eq h0)
    omega
  · intro hw; exfalso; revert hw hp; cases i <;> simp [waits, posOk, sampledPosOk]

/-- A sum of `j - 1` samples and one more is at most `j` times 4095 (R173). -/
theorem acc_bound {j : Nat} {a : U20} {v : U12} (hj : 1 ≤ j) (hn : j ≤ 255)
    (ha : a.toNat ≤ (j - 1) * 4095) :
   (a + v.setWidth 20).toNat ≤ j * 4095 := by
  have := v.isLt
  simp [BitVec.toNat_add]
  omega

theorem sampleDone_inv {s : State} {i : Instr} {done} {v : Sample} (h : s.Inv)
    (hb : s.status.busy = true) (hi : s.seq.inFlight = some i) (ok : s.InFlightOk i)
    (hpos : s.seq.pos = .raw .sample .csOff)
    (hd : (done ((s.setCs false).accumulate v).mean ((s.setCs false).accumulate v)).Inv) :
        (sampleDone done v (s.setCs false)).Inv := by
  have hp := ok.position
  rw [hpos] at hp
  have hf := ok.busFree (csOff_held ok hpos)
  unfold sampleDone
  split
  · next hlt =>
    simp at hlt
    refine Steady.inv (s := s) ?_ h hb hi (ok.move ?_ ?_ ?_ ok.measuring ?_ ?_ nofun)
    · exact ⟨rfl, rfl, rfl, rfl, rfl, rfl, rfl, rfl, rfl, id⟩
    · exact ⟨rfl, rfl, rfl, rfl, rfl, rfl, rfl, rfl, rfl, id⟩
    · cases i <;> simp_all [posOk, commitOnly, csPosOk, exchangePosOk, readAxisPosOk,
          sampledPosOk, rawPosOk]
    · simp [csLevel]
    · intro p hp
      obtain ⟨h1, h2, h3, h4⟩ := ok.sampling _ hpos
      have := s.prec.isLt
      have hx := acc_bound (v := v.x) h1 (by omega) h3
      have hy := acc_bound (v := v.y) h1 (by omega) h4
      simp at *
      omega
    · intro hw; exfalso; revert hw hp; cases i <;> simp [waits, posOk, sampledPosOk]
  · exact hd

/-- The move to the commit. -/
theorem toCommit_inv {s t : State} {i : Instr} (h : s.Inv) (hb : s.status.busy = true)
    (hi : s.seq.inFlight = some i) (ok : s.InFlightOk i)
    (st : Steady s t) (hpos : posOk s.cfg.useIrq s.status.modeEff i .commit = true)
    (hcs : t.pins.csN = csLevel s.status.csHeld i .commit)
    (hi' : gathers i = true → t.seq.i < s.build.mMax)
    (hfin : commitsGather t.seq.res.gate i = true → t.seq.res.complete = true →
        t.taken = s.build.mMax) :
    (t.goto .commit).Inv := by
  have st' : Steady s (t.goto .commit) := Steady.of_goto st
  exact st'.inv h hb hi (ok.move st' hpos hcs hi' nofun (fun _ h => absurd rfl h) (fun _ => hfin))

/-- A transaction that ends before the commit of a command that gathers nothing. -/
theorem rawDone_inv {s : State} {i : Instr} {u} (f) (h : s.Inv) (hb : s.status.busy = true)
    (hi : s.seq.inFlight = some i) (ok : s.InFlightOk i)
    (hpos : s.seq.pos = .raw u .csOff) (hng : gathers i = false) :
        (((s.setCs false).keep f).goto .commit).Inv := by
  have hp := ok.position
  rw [hpos] at hp
  have hf := ok.busFree (csOff_held ok hpos)
  refine toCommit_inv h hb hi ok ⟨rfl, rfl, rfl, rfl, rfl, rfl, rfl, rfl, rfl, id⟩ ?_ ?_
      (by simp [hng]) ?_
  · cases i <;> simp_all [posOk, commitOnly, csPosOk, exchangePosOk, readAxisPosOk, sampledPosOk]
  · simp [hf]
    cases i <;> simp_all [csLevel, posOk, csPosOk]
  · intro hg; exfalso; revert hg hng; cases i <;> simp [gathers, commitsGather]

theorem commit_held {s : State} {i} (ok : s.InFlightOk i) (hpos : s.seq.pos = .commit) :
   s.pins.csN = csLevel s.status.csHeld i .commit := by
  have := ok.chipSelect; rwa [hpos] at this

theorem idle_locked {s : State} {i} (ok : s.InFlightOk i) (hl : locksCfg i = false) :
    s.cfgLocked = s.status.initDone := by
  simpa [hl] using ok.locked

/-! ### The computations around a poll, a check and the gate -/

section
variable {s : State} {i : Instr}

theorem Seq.inFlight_arg {a} (hi : s.seq.inFlight = some (.setPrec a)) : s.seq.arg = a := by
  unfold Seq.inFlight at hi
  split at hi
  · cases hi
  · unfold decodeFields at hi
    split at hi
    · next heq => 
      split at heq <;> simp_all
    · cases hi

theorem checked_inv {t : State} {i : Instr} (f) (h : s.Inv) (hb : s.status.busy = true)
    (hi : s.seq.inFlight = some i) (ok : s.InFlightOk i) (st : Steady s t)
   (hp : posOk s.cfg.useIrq s.status.modeEff i .commit = true)
       (hcs : t.pins.csN = !s.status.csHeld) (hw : ∀ a, i ≠ .csAssert a) (hw' : ∀ a,
       i ≠ .csDeassert a)
   (hg : gathers i = false) : ((t.keep f).goto .commit).Inv := by
  refine toCommit_inv h hb hi ok (t := t.keep f) ?_ hp ?_ (by simp [hg]) ?_
  · exact ⟨st.op, st.arg, st.status, st.build, st.prec, st.cfg, st.cfgLocked, st.rstN, st.oe,
        st.low⟩
  · cases i <;> simp_all [csLevel]
  · intro h'; exfalso; revert h' hg; cases i <;> simp [gathers, commitsGather]

theorem waitDone_inv {t : State} {i : Instr} (target b : Bool) (h : s.Inv)
    (hb : s.status.busy = true) (hi : s.seq.inFlight = some i) (ok : s.InFlightOk i)
    (st : Steady s t)
   (hpos : s.seq.pos ≠ .commit)
   (hw : waits i = true) (hcs : t.pins.csN = !s.status.csHeld) (hl : t.seq.limit = s.seq.limit)
       (hpp : t.seq.p = s.seq.p) : (waitDone target b t).Inv := by
  have hwf : gathers i = false ∧ (∀ a, i ≠ .csAssert a) ∧ (∀ a, i ≠ .csDeassert a)
      ∧ posOk s.cfg.useIrq s.status.modeEff i .commit = true := by
    cases i <;> simp [waits] at hw <;> exact ⟨rfl, nofun, nofun, rfl⟩
  unfold waitDone
  split
  · exact checked_inv _ h hb hi ok (t := { t with seq := { t.seq with p := t.seq.p + 1 } })
        ⟨st.op, st.arg, st.status, st.build, st.prec, st.cfg, st.cfgLocked, st.rstN, st.oe,
        st.low⟩ hwf.2.2.2 hcs hwf.2.1 hwf.2.2.1 hwf.1
  · split
    · exact checked_inv _ h hb hi ok (t := { t with seq := { t.seq with p := t.seq.p + 1 } })
          ⟨st.op, st.arg, st.status, st.build, st.prec, st.cfg, st.cfgLocked, st.rstN, st.oe,
          st.low⟩ hwf.2.2.2 hcs hwf.2.1 hwf.2.2.1 hwf.1
    · next hn =>
      have st2 : Steady s ({ t with seq := { t.seq with p := t.seq.p + 1 } }.goto
          (t.touchedPos .check)) := ⟨st.op, st.arg, st.status, st.build, st.prec, st.cfg,
          st.cfgLocked, st.rstN, st.oe, st.low⟩
      refine st2.inv h hb hi (ok.move st2 ?_ ?_ (by simp [hwf.1]) ?_ ?_ ?_)
      · simp only [State.goto_seq, State.touchedPos, st.cfg]
        cases i <;> simp [waits] at hw <;> split <;> simp_all [posOk, sampledPosOk, rawPosOk]
      · simp only [State.goto_seq, State.goto_pins, State.touchedPos, st.cfg, hcs]
        split
        · cases i <;> simp_all [csLevel]
        · next hu =>
          have : s.status.csHeld = false := ok.busFree (by cases i <;> simp_all [waits,
              isTransaction])
          simp [this, csLevel]
      · simp only [State.goto_seq, State.touchedPos]; split <;> nofun
      · intro _ _ hl'
        simp at hl' hn ⊢
        have := ok.polling hw hpos
        rw [hl, hpp] at *
        have := this hl'
        have := hn hl'
        omega
      · simp only [State.goto_seq, State.touchedPos]; split <;> nofun

theorem measurementDone_inv {t : State} {i : Instr} {m} (h : s.Inv) (hb : s.status.busy = true)
    (hi : s.seq.inFlight = some i) (ok : s.InFlightOk i) (st : Steady s t)
   (hg : gathers i = true) (hcs : t.pins.csN = true) (hii : t.seq.i = s.seq.i) :
       (measurementDone m t).Inv := by
  have hf : s.status.csHeld = false := ok.busFree (by cases i <;> simp_all [gathers, isTransaction])
  have st2 : Steady s (measurementDone m t) := ⟨st.op, st.arg, st.status, st.build, st.prec,
      st.cfg, st.cfgLocked, st.rstN, st.oe, st.low⟩
  refine st2.inv h hb hi (ok.move st2 ?_ ?_ ?_ ?_ ?_ ?_)
  · simp only [measurementDone, State.goto_seq, State.touchedPos, st.cfg]
    cases i <;> simp [gathers] at hg <;> split <;> simp_all [posOk, sampledPosOk, rawPosOk]
  · simp only [measurementDone, State.goto_seq, State.goto_pins, State.touchedPos, st.cfg, hcs, hf]
    split <;> simp [csLevel]
  · intro _; simp only [measurementDone, State.goto_seq, hii]; exact ok.measuring hg
  · simp only [measurementDone, State.goto_seq, State.touchedPos]; split <;> nofun
  · intro hw; exfalso; revert hw hg; cases i <;> simp [waits, gathers]
  · simp only [measurementDone, State.goto_seq, State.touchedPos]; split <;> nofun

theorem checkDone_inv {t : State} {i : Instr} (b) (h : s.Inv) (hb : s.status.busy = true)
    (hi : s.seq.inFlight = some i) (ok : s.InFlightOk i) (st : Steady s t)
   (hg : gathers i = true) (hcs : t.pins.csN = true) (hii : t.seq.i = s.seq.i) :
       (checkDone b t).Inv := by
  have hf : s.status.csHeld = false := ok.busFree (by cases i <;> simp_all [gathers, isTransaction])
  have hcom : ∀ held, csLevel held i .commit = !held := by cases i <;> simp_all [gathers, csLevel]
  have hpc : posOk s.cfg.useIrq s.status.modeEff i .commit = true := by cases i <;>
      simp [gathers] at hg <;> rfl
  have hm := ok.measuring hg
  unfold checkDone
  split
  · refine toCommit_inv h hb hi ok (t := t.keep _) ?_ hpc (by simp [hcom, hf, hcs])
        (by simpa [hii] using ok.measuring) (by simp)
    exact ⟨st.op, st.arg, st.status, st.build, st.prec, st.cfg, st.cfgLocked, st.rstN, st.oe,
        st.low⟩
  · split
    · next hlt =>
      have st2 : Steady s ({ t with seq := { t.seq with i := t.seq.i + 1 } }.goto
          (.raw .discard .csOn)) := ⟨st.op, st.arg, st.status, st.build, st.prec, st.cfg,
          st.cfgLocked, st.rstN, st.oe, st.low⟩
      refine st2.inv h hb hi (ok.move st2 ?_ ?_ ?_ nofun ?_ nofun)
      · cases i <;> simp [gathers] at hg <;> rfl
      · simp [csLevel, hcs]
      · intro _; simpa [State.taken, st.build] using hlt
      · intro hw; exfalso; revert hw hg; cases i <;> simp [waits, gathers]
    · next hlt =>
      refine toCommit_inv h hb hi ok (t := t.keep _) ?_ hpc (by simp [hcom, hf, hcs])
          (by simpa [hii] using ok.measuring) ?_
      · exact ⟨st.op, st.arg, st.status, st.build, st.prec, st.cfg, st.cfgLocked, st.rstN, st.oe,
            st.low⟩
      · intro _ _
        simp [State.taken, st.build, hii] at hlt ⊢
        omega

theorem gateDone_inv {t : State} {a} (b) (h : s.Inv) (hb : s.status.busy = true)
    (hi : s.seq.inFlight = some (.readTouch a)) (ok : s.InFlightOk (.readTouch a)) (st : Steady s t)
   (hcs : t.pins.csN = true) (hii : t.seq.i = s.seq.i) : (gateDone b t).Inv := by
  have hf : s.status.csHeld = false := ok.busFree rfl
  unfold gateDone
  have st2 : ∀ p, Steady s ((t.keep fun r => { r with gate := b }).goto p) := fun p => ⟨st.op,
      st.arg, st.status, st.build, st.prec, st.cfg, st.cfgLocked, st.rstN, st.oe, st.low⟩
  refine (st2 _).inv h hb hi (ok.move (st2 _) ?_ ?_ ?_ ?_ nofun ?_)
  · cases b <;> rfl
  · cases b <;> simp [csLevel, hcs, hf]
  · intro _; simp [hii]; exact ok.measuring rfl
  · cases b <;> nofun
  · cases b <;> simp [commitsGather]

end

/-! ### Acceptance, refusal and the host -/

/-- What acceptance tells of a command: each check of R257 has passed. -/
theorem check_none {i : Instr} {s : State} (h : check i s = .none) :
    isReinit s.cfgLocked i = false ∧ (needsInit i = true → s.status.initDone = true) ∧
      (isTransaction s.cfg.useIrq i = true → s.status.csHeld = false) ∧ isBadArg i = false := by
  unfold check at h
  split at h
  · cases h
  · split at h
    · cases h
    · split at h
      · cases h
      · split at h
        · cases h
        · simp_all

theorem inFlight_accept (i : Instr) (p) (s : State) : (s.accept i p).seq.inFlight = some i := by
  cases i <;> rfl

theorem accept_seq_facts (i : Instr) (p) (s : State) : (s.accept i p).seq.pos = p ∧
    (s.accept i p).seq.i = 0 ∧ (s.accept i p).seq.p = 0 := by
  cases i <;> exact ⟨rfl, rfl, rfl⟩

/-- Acceptance keeps the invariant (R84). -/
theorem accept_inv {s : State} {i : Instr} {p : Pos} (h : s.Inv) (hb : s.status.busy = false)
    (hr : s.rstN = true) (hc : check i s = .none)
    (hp : posOk s.cfg.useIrq s.status.modeEff i p = true)
        (hcs : csLevel s.status.csHeld i p = !s.status.csHeld) 
    (hns : ∀ q, p ≠ .raw .sample q) (hcom : gathers i = true → p ≠ .commit)
        (hm : 1 ≤ s.build.mMax) : (s.accept i p).Inv := by
  obtain ⟨h1, h2, h3, h4⟩ := h.idle hb
  obtain ⟨f1, f2, f3⟩ := accept_seq_facts i p s
  obtain ⟨c1, c2, c3, c4⟩ := check_none hc
  refine ⟨h.build, h.clockIdle, h.driven, h.mode, h.held, h.precision, h.count, h.complete,
      nofun, fun _ => ⟨hr, i, inFlight_accept i p s, ?_⟩, ?_⟩
  · refine ⟨by rw [f1]; exact hp, ?_, ?_, ?_, ?_, ?_, rfl, ?_, ?_, ?_, ?_, ?_⟩
    · exact c2
    · exact c3
    · simp [h3]
    · intro hl
      have : isReinit s.cfgLocked i = s.cfgLocked := by cases i <;> simp_all [locksCfg, isReinit]
      rw [this, h3] at c1
      exact c1
    · cases i <;> simp_all [isBadArg, Instr.wellFormed]
    · rw [f1]; simp [hcs, h4]
    · intro _; rw [f2]; exact hm
    · rw [f1]; intro q hq; exact absurd hq (hns q)
    · intro _ _ hl
      rw [f3]
      exact Nat.pos_of_ne_zero fun h0 => hl (BitVec.eq_of_toNat_eq h0)
    · rw [f1]; intro hq hg
      have : gathers i = true := by cases i <;> simp_all [commitsGather, gathers]
      exact absurd hq (hcom this)
  · simp [hr]

/-- A refusal keeps it (R252). -/
theorem raise_inv {s : State} {c : ErrCode} (h : s.Inv) (hb : s.status.busy = false)
    (hr : s.rstN = true) : (s.raiseCmdError c).Inv :=
  ⟨h.build, h.clockIdle, h.driven, h.mode, h.held, h.precision, h.count, h.complete, h.idle,
      by simp [hb], by simp [hr]⟩

theorem setScript_inv {s : State} (l) (h : s.Inv) : (s.setScript l).Inv where
  build := h.build
  clockIdle := h.clockIdle
  driven := h.driven
  mode := h.mode
  held := h.held
  precision := h.precision
  count := h.count
  complete := h.complete
  idle := h.idle
  inFlight := fun hb => by
    obtain ⟨hr, i, hi, ok⟩ := h.inFlight hb
    exact ⟨hr, i, hi, ⟨ok.position, ok.initialised, ok.busFree, ok.locked, ok.firstInit,
        ok.legalArg, ok.noError, ok.chipSelect, ok.measuring, ok.sampling, ok.polling, ok.finished⟩⟩
  heldReset := fun hr => by
    have := h.heldReset hr
    conv => lhs; rw [State.setScript]
    rw [this]; rfl

theorem env_inv {s : State} (e : Env) (h : s.Inv) : ({ s with env := e } : State).Inv where
  build := h.build
  clockIdle := h.clockIdle
  driven := h.driven
  mode := h.mode
  held := h.held
  precision := h.precision
  count := h.count
  complete := h.complete
  idle := h.idle
  inFlight := fun hb => by
    obtain ⟨hr, i, hi, ok⟩ := h.inFlight hb
    exact ⟨hr, i, hi, ⟨ok.position, ok.initialised, ok.busFree, ok.locked, ok.firstInit,
        ok.legalArg, ok.noError, ok.chipSelect, ok.measuring, ok.sampling, ok.polling, ok.finished⟩⟩
  heldReset := fun hr => by
    have := h.heldReset hr
    rw [this]; rfl

theorem gotRead_inv {s : State} (a w) (h : s.Inv) : (s.gotRead a w).Inv where
  build := h.build
  clockIdle := h.clockIdle
  driven := h.driven
  mode := h.mode
  held := h.held
  precision := h.precision
  count := h.count
  complete := h.complete
  idle := h.idle
  inFlight := fun hb => by
    obtain ⟨hr, i, hi, ok⟩ := h.inFlight hb
    exact ⟨hr, i, hi, ⟨ok.position, ok.initialised, ok.busFree, ok.locked, ok.firstInit,
        ok.legalArg, ok.noError, ok.chipSelect, ok.measuring, ok.sampling, ok.polling, ok.finished⟩⟩
  heldReset := fun hr => by
    have := h.heldReset hr
    rw [this]; rfl

/-- A host read keeps it (R64). -/
theorem hostRead_inv {s : State} (a) (h : s.Inv) : (s.hostRead a).Inv := by
  unfold State.hostRead
  split
  · exact gotRead_inv _ _ (env_inv _ h)
  · exact gotRead_inv _ _ h

/-- Reset establishes it (R281). -/
theorem resetOf_inv (b : Params) (hb : b.Legal) (hist reads env) :
    (State.resetOf b hist reads env).Inv where
  build := hb
  clockIdle := ⟨rfl, rfl⟩
  driven := rfl
  mode := rfl
  held := nofun
  precision := by show precReset ≠ 0#8; decide
  count := Nat.zero_le _
  complete := nofun
  idle := fun _ => ⟨rfl, rfl, rfl, rfl⟩
  inFlight := nofun
  heldReset := nofun

theorem driveReset_inv {s : State} (l : Bool) (h : s.Inv) : (s.driveReset l).Inv := by
  unfold State.driveReset
  split
  · refine ⟨h.build, h.clockIdle, h.driven, h.mode, h.held, h.precision, h.count, h.complete,
        h.idle, ?_, nofun⟩
    intro hb
    obtain ⟨hr, i, hi, ok⟩ := h.inFlight hb
    exact ⟨rfl, i, hi, ⟨ok.position, ok.initialised, ok.busFree, ok.locked, ok.firstInit,
        ok.legalArg, ok.noError, ok.chipSelect, ok.measuring, ok.sampling, ok.polling, ok.finished⟩⟩
  · have := resetOf_inv s.build h.build s.hist s.reads s.env
    exact ⟨this.build, this.clockIdle, this.driven, this.mode, this.held, this.precision,
        this.count, this.complete, this.idle, nofun, fun _ => rfl⟩

/-- A register write keeps it: CFG cannot change once a command that reads it is in flight (R30). -/
theorem write_inv {s : State} (a : Nat) (w : Word) (h : s.Inv) (hr : s.rstN = true) :
    (s.writeRegister a w).Inv := by
  have gen : ∀ u : State, u.build = s.build → u.pins = s.pins → u.status.busy = s.status.busy →
      u.status.initDone = s.status.initDone → u.status.modeEff = s.status.modeEff →
      u.status.csHeld = s.status.csHeld → u.status.nMeas = s.status.nMeas →
      u.status.complete = s.status.complete → u.status.err = s.status.err → u.prec = s.prec →
      u.seq = s.seq → u.cfgLocked = s.cfgLocked → u.rstN = s.rstN → u.accX = s.accX →
      u.accY = s.accY → (s.cfgLocked = true → u.cfg = s.cfg) → u.Inv := by
    intro u e1 e2 e3 e4 e5 e6 e7 e8 e9 e10 e11 e12 e13 e14 e15 e16
    refine ⟨e1 ▸ h.build, e2 ▸ h.clockIdle, ?_, ?_, ?_, e10 ▸ h.precision, ?_, ?_, ?_, ?_, ?_⟩
    · rw [e2, e4]; exact h.driven
    · rw [e5, e4]; exact h.mode
    · rw [e6, e4]; exact h.held
    · rw [e7, e1]; exact h.count
    · rw [e8, e7, e1]; exact h.complete
    · rw [e3, e11, e12, e4, e2, e6]; exact h.idle
    rotate_left
    · rw [e13, hr]; nofun
    rw [e3, e13, e11]
    intro hb
    obtain ⟨hr, i, hi, ok⟩ := h.inFlight hb
    refine ⟨hr, i, hi, ?_⟩
    have hcfg : needsInit i = true → u.cfg = s.cfg := by
      intro hn
      refine e16 ?_
      rw [ok.locked, ok.initialised hn, Bool.true_or]
    refine ⟨?_, ?_, ?_, ?_, ?_, ok.legalArg, ?_, ?_, ?_, ?_, ?_, ?_⟩
    · rw [e5, e11]
      have hp := ok.position
      by_cases hn : needsInit i = true
      · rw [hcfg hn]; exact hp
      · cases i <;> first | exact hp | simp [needsInit] at hn
    · rw [e4]; exact ok.initialised
    · rw [e6]
      have hp := ok.busFree
      by_cases hn : needsInit i = true
      · rw [hcfg hn]; exact hp
      · cases i <;> first | exact hp | simp [needsInit] at hn
    · rw [e4, e12]; exact ok.locked
    · rw [e4]; exact ok.firstInit
    · rw [e9]; exact ok.noError
    · rw [e2, e6, e11]; exact ok.chipSelect
    · rw [e11, e1]; exact ok.measuring
    · rw [e11, e10, e14, e15]; exact ok.sampling
    · rw [e11]; exact ok.polling
    · unfold State.taken; rw [e11, e1]; exact ok.finished
  unfold State.writeRegister
  split
  · split
    · exact h
    · next hl =>
      exact gen _ rfl rfl rfl rfl rfl rfl rfl rfl rfl rfl rfl rfl rfl rfl rfl
        (fun hl' => absurd hl' hl)
  · split
    · exact gen _ rfl rfl rfl rfl rfl rfl rfl rfl rfl rfl rfl rfl rfl rfl rfl (fun _ => rfl)
    · exact h
  all_goals
    first
    | exact h
    | exact gen _ rfl rfl rfl rfl rfl rfl rfl rfl rfl rfl rfl rfl rfl rfl rfl (fun _ => rfl)

theorem dropCmd_inv {s : State} (h : s.Inv) (hb : s.status.busy = true) : s.dropCmd.Inv := by
  obtain ⟨hr, i, hi, ok⟩ := h.inFlight hb
  refine ⟨h.build, h.clockIdle, h.driven, h.mode, h.held, h.precision, h.count, h.complete,
      h.idle, fun _ => ⟨hr, i, hi, ⟨ok.position, ok.initialised, ok.busFree, ok.locked,
      ok.firstInit, ok.legalArg, ok.noError, ok.chipSelect, ok.measuring, ok.sampling,
      ok.polling, ok.finished⟩⟩, by simp [hr]⟩

end Sys2Proof.Machine
end

