-- ==== Sys2Proof/Laws/PerInstr.lean ====
section
/-! SUPPORT. What holds of every command as syntax: its opcode and ARG decode to it (R81, R90). -/

namespace Sys2Proof.Laws.Encoding

/-- The opcode map sends a command's fields back to the command, and no opcode lies past 0x15 (R81). -/
def Statement (i : Instr) : Prop :=
  decodeFields i.opcode i.arg = .ok i ∧ i.opcode.toNat ≤ 0x15

theorem nop (arg : Byte) : Statement (.nop arg) := ⟨rfl, by simp [Instr.opcode]⟩
theorem init (arg : Byte) : Statement (.init arg) := ⟨rfl, by simp [Instr.opcode]⟩
theorem readTouch (arg : Byte) : Statement (.readTouch arg) := ⟨rfl, by simp [Instr.opcode]⟩
theorem waitTouch (arg : Byte) : Statement (.waitTouch arg) := ⟨rfl, by simp [Instr.opcode]⟩
theorem waitRelease (arg : Byte) : Statement (.waitRelease arg) := ⟨rfl, by simp [Instr.opcode]⟩
theorem setCal (arg : Byte) : Statement (.setCal arg) := ⟨rfl, by simp [Instr.opcode]⟩
theorem setPrec (arg : Byte) : Statement (.setPrec arg) := ⟨rfl, by simp [Instr.opcode]⟩
theorem isTouched (arg : Byte) : Statement (.isTouched arg) := ⟨rfl, by simp [Instr.opcode]⟩
theorem measure (arg : Byte) : Statement (.measure arg) := ⟨rfl, by simp [Instr.opcode]⟩
theorem gather (arg : Byte) : Statement (.gather arg) := ⟨rfl, by simp [Instr.opcode]⟩
theorem transform (arg : Byte) : Statement (.transform arg) := ⟨rfl, by simp [Instr.opcode]⟩
theorem csAssert (arg : Byte) : Statement (.csAssert arg) := ⟨rfl, by simp [Instr.opcode]⟩
theorem csDeassert (arg : Byte) : Statement (.csDeassert arg) := ⟨rfl, by simp [Instr.opcode]⟩
theorem xferWrite (arg : Byte) : Statement (.xferWrite arg) := ⟨rfl, by simp [Instr.opcode]⟩
theorem xferRead (arg : Byte) : Statement (.xferRead arg) := ⟨rfl, by simp [Instr.opcode]⟩
theorem readAxis (arg : Byte) : Statement (.readAxis arg) := ⟨rfl, by simp [Instr.opcode]⟩
theorem readRaw (arg : Byte) : Statement (.readRaw arg) := ⟨rfl, by simp [Instr.opcode]⟩

end Sys2Proof.Laws.Encoding
end

