-- ==== Sys2Proof/Tests/Slice0.lean ====
section
/-! SUPPORT. Tests: words of the encoding, the ill-formed term, one step of each command with the spec's
own example values, and for each statement with hypotheses a state that meets them. -/

/- The kernel evaluations below run one after another: each waiting one would hold a thread of its own. -/
set_option Elab.async false

namespace Sys2Proof.Tests

open Sys2Proof Sys2Proof.Machine

/-! ## Decoding (30_encoding.md R80–R83, 95_test_vectors.md) -/

theorem test_decode_facade :
    decode 0x00000000#32 = .ok (.nop 0#8) ∧ decode 0x00000001#32 = .ok (.init 0#8) ∧
      decode 0xFFFF0002#32 = .ok (.readTouch 0#8) := by decide
theorem test_decode_presence :
    decode 0x00000003#32 = .ok (.waitTouch 0#8) ∧ decode 0x00000004#32 = .ok (.waitRelease 0#8) ∧
      decode 0x00000008#32 = .ok (.isTouched 0#8) := by decide
theorem test_decode_affine :
    decode 0x00000005#32 = .ok (.setCal 0#8) ∧ decode 0x0000000B#32 = .ok (.transform 0#8) := by
  decide
theorem test_decode_accumulator :
    decode 0x00000506#32 = .ok (.setPrec 5#8) ∧ decode 0x00000009#32 = .ok (.measure 0#8) := by
  decide
theorem test_decode_median : decode 0x0000000A#32 = .ok (.gather 0#8) := by decide
theorem test_decode_transport :
    decode 0x00000010#32 = .ok (.csAssert 0#8) ∧ decode 0x00000011#32 = .ok (.csDeassert 0#8) ∧
      decode 0x0000A512#32 = .ok (.xferWrite 0xA5#8) ∧
      decode 0x00000013#32 = .ok (.xferRead 0#8) := by decide
theorem test_decode_sampler :
    decode 0x0000D014#32 = .ok (.readAxis 0xD0#8) ∧ decode 0x00000015#32 = .ok (.readRaw 0#8) := by
  decide
/-- The opcodes on both sides of each reserved range (R83). -/
theorem test_decode_reserved_borders :
    [0x07#32, 0x0C#32, 0x0F#32, 0x16#32, 0xFF#32].map (fun w => (decode w).toOption) =
        [none, none, none, none, none] ∧
      [0x06#32, 0x08#32, 0x0B#32, 0x10#32, 0x15#32].all (fun w => (decode w).toOption.isSome) := by
  decide
theorem test_table_word : decodeTableWord 32 0x0000A512 = some (.xferWrite 0xA5#8) := by decide
/-- The one ill-formed term: SET_PREC with n = 0 (R255). -/
theorem test_ill_formed : (Instr.setPrec 0#8).wellFormed = false ∧
    (Instr.setPrec 1#8).wellFormed = true := by decide

/-! ## Small states -/

/-- A build with RESCALE = 1.0 and at most four measurements a gather. -/
def build : Params := ⟨4, 0x3F800000#32, 0xD0#8, 0x90#8, .hw, 2, 1, 1, .floor, .range⟩

theorem build_legal : build.Legal := by constructor <;> decide

/-- The block right after reset. -/
def fresh : State := State.resetOf build [] [] Env.empty

/-- The block after INIT, with the engine and the presence method given. -/
def ready (mode : TransportMode) (useIrq : Bool) : State :=
  { fresh with
    cfg := ⟨.auto, useIrq⟩, cfgLocked := true
    status := { fresh.status with initDone := true, modeEff := some mode }
    pins := ⟨true, false, false, true⟩ }

/-- `s` with the command `i` in flight at the position `p`. -/
def doing (i : Instr) (p : Pos) (s : State) : State :=
  { s with
    status := { s.status with busy := true }
    seq := { s.seq with op := some i.opcode, arg := i.arg, pos := p } }

/-- `s` with partial results. -/
def having (f : Results → Results) (s : State) : State := s.keep f

/-- `s` with the bits the touch controller answers next. -/
def answering (bits : List Bool) (s : State) : State :=
  { s with env := { s.env with miso := bits } }

/-- `s` with the levels of the pen line. -/
def pen (levels : List Bool) (s : State) : State :=
  { s with env := { s.env with pen := levels } }

/-- `s` with host actions and turns pending. -/
def hosting (script : List HostAction) (turns : List Agent) (s : State) : State :=
  { s with env := { s.env with script := script, turns := turns } }

/-- `o` is a next state in which `p` holds. -/
def answers (o : Out) (p : State → Bool) : Bool :=
  match o with
  | .next t => p t
  | .fault _ => false
  | .refused _ => false

/-- The bits of a byte in the order they are clocked. -/
def bitsOf (b : Byte) : List Bool := msbFirst b

/-! ## One step of each command, with the values of the rules' examples -/

/-- R231: NOP's acceptance clears a left-over ERR. -/
theorem test_nop : answers
    (exec (.nop 0#8) { fresh with status := { fresh.status with err := .notInit } })
    (fun t => t.status.word == 0x1#32) = true := by decide +kernel

/-- R233's example: Software, USE_IRQ = 1. -/
theorem test_init : answers
    (exec (.init 0#8) { doing (.init 0#8) .commit fresh with
      seq := { (doing (.init 0#8) .commit fresh).seq with cfg := ⟨.software, true⟩ } })
    (fun t => t.status.word == 0x82#32 && t.pins.word false false == 0x21#32) = true := by
  decide +kernel

/-- R234: a second INIT is refused with code 3. -/
theorem test_init_again : answers (exec (.init 0#8) (ready .hw true))
    (fun t => t.status.word == 0x342#32) = true := by decide +kernel

/-- R211's example. -/
theorem test_setCal : answers
    (exec (.setCal 0#8) { doing (.setCal 0#8) .commit fresh with
      cal := ⟨0x40000000#32, 0#32, 0#32, 0#32, 0x40000000#32, 0#32⟩ })
    (fun t => t.calAct == ⟨0x40000000#32, 0#32, 0#32, 0#32, 0x40000000#32, 0#32⟩ &&
      !t.status.busy) = true := by decide +kernel

/-- R171's example. -/
theorem test_setPrec : answers (exec (.setPrec 5#8) (doing (.setPrec 5#8) .commit fresh))
    (fun t => t.prec == 5#8) = true := by decide +kernel

/-- R255: SET_PREC 0 is refused with code 5. -/
theorem test_setPrec_zero : answers (exec (.setPrec 0#8) fresh)
    (fun t => t.prec == 3#8 && t.status.word == 0x500#32) = true := by decide +kernel

/-- R217's example. -/
theorem test_transform : answers
    (exec (.transform 0#8) { doing (.transform 0#8) .commit fresh with
      calAct := ⟨0x40000000#32, 0#32, 0#32, 0#32, 0x40000000#32, 0#32⟩
      seq := { (doing (.transform 0#8) .commit fresh).seq with tin := ⟨100#12, 50#12⟩ } })
    (fun t => t.coord.word == 0x006400C8#32) = true := by decide +kernel

/-- R84: TRANSFORM latches TIN when it is accepted. -/
theorem test_transform_latch : answers
    (exec (.transform 0#8) { fresh with tin := ⟨100#12, 50#12⟩ })
    (fun t => t.seq.tin == ⟨100#12, 50#12⟩ && t.seq.pos == .commit) = true := by decide +kernel

/-- R110. -/
theorem test_csAssert : answers
    (exec (.csAssert 0#8) (doing (.csAssert 0#8) .setCs (ready .hw true)))
    (fun t => !t.pins.csN && t.hist == [.cs true]) = true := by decide +kernel

/-- R111: its corner case CS_HELD = 0. -/
theorem test_csDeassert : answers (exec (.csDeassert 0#8) (ready .hw true))
    (fun t => t.seq.pos == .commit && t.hist == []) = true := by decide +kernel

/-- R112's example: 0xA5 on the wire. -/
theorem test_xferWrite : answers
    (exec (.xferWrite 0xA5#8)
      (answering (bitsOf 0xFF#8) (doing (.xferWrite 0xA5#8) .exchange (ready .sw true))))
    (fun t => t.hist == [.xfer 0xA5#8 0xFF#8] && t.xfer.rxByte == 0#8) = true := by decide +kernel

theorem test_xferWrite_wire :
    waveBits (hwExchange 2 0xA5#8 Env.empty).wave =
      [true, false, true, false, false, true, false, true] := by decide +kernel

/-- R113's example: the touch controller drives 0,0,1,1,1,1,0,0. -/
theorem test_xferRead : answers
    (exec (.xferRead 0#8) (answering [false, false, true, true, true, true, false, false]
      (doing (.xferRead 0#8) .exchange (ready .hw true))))
    (fun t => t.seq.res.byte == 0x3C#8 && t.hist == [.xfer 0#8 0x3C#8]) = true := by decide +kernel

theorem test_xferRead_commit : answers
    (exec (.xferRead 0#8) (having (fun r => { r with byte := 0x3C#8 })
      (doing (.xferRead 0#8) .commit (ready .hw true))))
    (fun t => t.xfer.word == 0x3C#32) = true := by decide +kernel

/-- R138's example: b1 = 0x3A, b2 = 0x98. -/
theorem test_readAxis : answers
    (exec (.readAxis 0xD0#8) (answering (bitsOf 0x98#8) (having (fun r => { r with byte := 0x3A#8 })
      (doing (.readAxis 0xD0#8) (.axis .lowByte) (ready .hw true)))))
    (fun t => t.seq.res.axis == 0x753#12 && t.seq.pos == .commit) = true := by decide +kernel

theorem test_readAxis_commit : answers
    (exec (.readAxis 0xD0#8) (having (fun r => { r with axis := 0x753#12 })
      (doing (.readAxis 0xD0#8) .commit (ready .hw true))))
    (fun t => t.xfer.word == 0x07530000#32) = true := by decide +kernel

/-- R139's example. -/
theorem test_readRaw : answers
    (exec (.readRaw 0#8) (having (fun r => { r with x := 0x800#12, y := 0xFFF#12 })
      (doing (.readRaw 0#8) .commit (ready .sw true))))
    (fun t => t.raw.word == 0x0FFF0800#32) = true := by decide +kernel

/-- R134: in SW mode the 12 bits of `BusRead12` are the value of X, and Y follows. -/
theorem test_readRaw_sw : answers
    (exec (.readRaw 0#8) (answering (msbFirst 0x800#12)
      (doing (.readRaw 0#8) (.raw .result (.x .read12)) (ready .sw true))))
    (fun t => t.seq.res.x == 0x800#12 && t.seq.pos == .raw .result (.y .command)) = true := by
  decide +kernel

/-- R156's example: x = 2048 and y = 4095. -/
theorem test_isTouched : answers
    (exec (.isTouched 0#8) (having (fun r => { r with x := 2048#12, y := 4095#12, touched := true })
      (doing (.isTouched 0#8) (.raw .check .csOff) (ready .hw false))))
    (fun t => t.seq.res.touched == false && t.seq.pos == .commit && t.pins.csN) = true := by
  decide +kernel

theorem test_isTouched_commit : answers
    (exec (.isTouched 0#8) (having (fun r => { r with x := 2048#12, y := 4095#12 })
      (doing (.isTouched 0#8) .commit (ready .hw false))))
    (fun t => t.raw.word == 0x0FFF0800#32 && !t.status.touching) = true := by decide +kernel

/-- R158's example: the poll that finds the line low ends the wait. -/
theorem test_waitTouch : answers
    (exec (.waitTouch 0#8) (pen [false] (doing (.waitTouch 0#8) (.pen .check) (ready .hw true))))
    (fun t => t.seq.pos == .commit && t.seq.res.touched && !t.seq.res.timedOut) = true := by
  decide +kernel

/-- R161: an unbounded wait polls on. -/
theorem test_waitTouch_polls_on : answers
    (exec (.waitTouch 0#8) (pen [true] (doing (.waitTouch 0#8) (.pen .check) (ready .hw true))))
    (fun t => t.seq.pos == .pen .check && t.status.busy) = true := by decide +kernel

/-- R160's example: WAIT_LIMIT = 2, the second poll still finds contact. -/
theorem test_waitRelease : answers
    (exec (.waitRelease 0#8) (pen [false]
      { doing (.waitRelease 0#8) (.pen .check) (ready .hw true) with
        seq := { (doing (.waitRelease 0#8) (.pen .check) (ready .hw true)).seq with
          limit := 2#32, p := 1 } }))
    (fun t => t.seq.pos == .commit && t.seq.res.timedOut) = true := by decide +kernel

theorem test_waitRelease_commit : answers
    (exec (.waitRelease 0#8) (having (fun r => { r with touched := true, timedOut := true })
      (doing (.waitRelease 0#8) .commit (ready .hw true))))
    (fun t => t.status.word == 0x646#32) = true := by decide +kernel

/-- R177's example: the third of the X samples 100, 101, 103 and the Y samples 200, 200, 201. -/
theorem test_measure : answers
    (exec (.measure 0#8) (having (fun r => { r with x := 103#12, y := 201#12 })
      { doing (.measure 0#8) (.raw .sample .csOff) (ready .hw true) with
        accX := 201#20, accY := 400#20
        seq := { (doing (.measure 0#8) (.raw .sample .csOff) (ready .hw true)).seq with j := 3 } }))
    (fun t => t.seq.res.mean == ⟨101#12, 200#12⟩ && t.seq.pos == .commit) = true := by
  decide +kernel

theorem test_measure_commit : answers
    (exec (.measure 0#8) (having (fun r => { r with mean := ⟨101#12, 200#12⟩ })
      (doing (.measure 0#8) .commit (ready .hw true))))
    (fun t => t.meas.word == 0x00C80065#32) = true := by decide +kernel

/-- Four measurements taken, X = 100, 400, 200, 300 and Y = 50, 50, 60, 70 (R195's example). -/
def gathered (i : Instr) (p : Pos) : State :=
  { doing i p (ready .hw true) with
    mvals := (((fresh.mvals.setIfInBounds 0 ⟨100#12, 50#12⟩).setIfInBounds 1
      ⟨400#12, 50#12⟩).setIfInBounds 2 ⟨200#12, 60#12⟩).setIfInBounds 3 ⟨300#12, 70#12⟩
    seq := { (doing i p (ready .hw true)).seq with i := 3 } }

/-- R195's example: MED, NMEAS = 4, COMPLETE = 0, TOUCHING = 0. -/
theorem test_gather : answers (exec (.gather 0#8) (gathered (.gather 0#8) .commit))
    (fun t => t.med.word == 0x003700FA#32 && t.status.word == 0x00040042#32) = true := by
  decide +kernel

/-- R194: the check after the last of M_MAX = 4 measurements passes. -/
theorem test_gather_complete : answers
    (exec (.gather 0#8) (pen [false] (gathered (.gather 0#8) (.pen .check))))
    (fun t => t.seq.pos == .commit && t.seq.res.complete && t.taken == 4) = true := by
  decide +kernel

/-- R235: TOUCHING = 1 although the gather lost contact; POS comes from the median pair. -/
theorem test_readTouch : answers
    (exec (.readTouch 0#8) (having (fun r => { r with gate := true })
      { gathered (.readTouch 0#8) .commit with
        calAct := ⟨0x3F800000#32, 0#32, 0#32, 0#32, 0x3F800000#32, 0#32⟩ }))
    (fun t => t.coord.word == 0x003700FA#32 && t.status.word == 0x00040046#32) = true := by
  decide +kernel

/-- R236: an undetected touch ends after the gate. -/
theorem test_readTouch_untouched : answers
    (exec (.readTouch 0#8) (pen [true] (doing (.readTouch 0#8) (.pen .gate) (ready .hw true))))
    (fun t => t.seq.pos == .commit && !t.seq.res.gate && t.hist == [.pen true]) = true := by
  decide +kernel

/-! ## Pure functions (the corner cases of R171–R219) -/

/-- R219: `0.7 ⊗ 10` rounds to 7. -/
theorem test_rounding_shows :
    (xform build ⟨0x3F333333#32, 0#32, 0#32, 0#32, 0#32, 0#32⟩ ⟨10#12, 0#12⟩).xd = 7#16 := by
  decide +kernel

/-- R214: 60000.5 is kept as 60000, 60001 becomes 0. -/
theorem test_clamp :
    toCoord .range (.fin false (120001 * 2 ^ 148)) = 60000#16 ∧
      toCoord .range (.fin false (60001 * 2 ^ 149)) = 0#16 ∧
      toCoord .wrap16 (.fin true (5536 * 2 ^ 149)) = 60000#16 ∧
      toCoord .wrap16 (.fin false (70000 * 2 ^ 149)) = 4464#16 := by decide +kernel

/-- R191: the two roundings of an even count. -/
theorem test_median_rounding :
    median .floor [3#12, 2#12] = 2#12 ∧ median .halfUp [3#12, 2#12] = 3#12 := by decide +kernel

/-! ## States that meet the hypotheses of the statements -/

/-- Config.build is legal whatever the OPEN values are (R7). -/
theorem config_build_legal : Config.build.Legal where
  mMax_pos := by decide
  mMax_le := by decide
  rescale := by
    show finiteNonzero (if finiteNonzero Config.openRescale then Config.openRescale
      else 0x3F800000#32) = true
    split
    · assumption
    · decide
  cmd_ne := by
    show Config.openCmdX ≠ Config.openCmdX + 1#8 + BitVec.ofNat 8 Config.openCmdYGap.val
    have h := Config.openCmdYGap.isLt
    intro e
    have := congrArg BitVec.toNat e
    simp only [BitVec.toNat_add, BitVec.toNat_ofNat] at this
    have hx := Config.openCmdX.isLt
    omega
  hwDiv_even := by show 2 * (Config.openHwHalf + 1) % 2 = 0; omega
  hwDiv_pos := by show 2 ≤ 2 * (Config.openHwHalf + 1); omega
  swHalf := by show 1 ≤ Config.openSwHalf + 1; omega
  tSettle := by show 1 ≤ Config.openSettle + 1; omega

theorem fresh_inv : fresh.Inv := resetOf_inv build build_legal [] [] Env.empty

theorem ready_inv (mode : TransportMode) (useIrq : Bool) : (ready mode useIrq).Inv where
  build := build_legal
  clockIdle := ⟨rfl, rfl⟩
  driven := rfl
  mode := rfl
  held := nofun
  precision := by show precReset ≠ 0#8; decide
  count := Nat.zero_le _
  complete := nofun
  idle := fun _ => ⟨rfl, rfl, rfl, rfl⟩
  inFlight := nofun
  heldReset := nofun

/-- A NOP in flight right after reset, with host inputs pending. -/
def nopInFlight (script : List HostAction) (turns : List Agent) : State :=
  hosting script turns (fresh.accept (.nop 0#8) .commit)

theorem nopInFlight_inv (script : List HostAction) (turns : List Agent) :
    (nopInFlight script turns).Inv :=
  env_inv _ (accept_inv fresh_inv rfl rfl rfl rfl rfl nofun nofun (by decide))

/-- A CMD write pending in an idle block. -/
def writing (w : Word) (s : State) : State := hosting [.write 0x0A#8 w] [] s

theorem test_DecodeInvertsEncode_hyps : decode 0xFFFF0506#32 = .ok (.setPrec 5#8) := by decide

theorem test_ReservedOpcodesExactly_hyps :
    decode 0x07#32 = .error (.reservedOp 7#8) ∧ decode 0x06#32 ≠ .error (.reservedOp 6#8) := by
  decide

theorem test_StepRunsTheCommand_written_hyps :
    (writing 0x00000506#32 fresh).env.script = [.write 0x0A#8 0x00000506#32] ∧
      wordAddr 0x0A#8 = 0x08 ∧ (writing 0x00000506#32 fresh).rstN = true ∧
      (writing 0x00000506#32 fresh).status.busy = false ∧
      decode 0x00000506#32 = .ok (.setPrec 5#8) := by decide +kernel

theorem test_StepRunsTheCommand_inFlight_hyps :
    (nopInFlight [] []).status.busy = true ∧ (nopInFlight [] []).rstN = true ∧
      (nopInFlight [] []).seq.inFlight = some (.nop 0#8) ∧ (nopInFlight [] []).env.script = [] ∧
      (nopInFlight [.read 0#8] [.sequencer]).env.script ≠ [] ∧
      (nopInFlight [.read 0#8] [.sequencer]).env.takeTurn =
        (.sequencer, (nopInFlight [.read 0#8] []).env) := by decide +kernel

/-- SequencerIsNotStarved: a host in WAITIDLE that has the turn twice; then the turn is the sequencer's,
also past the list of turns once the number of host moves is spent (R298). -/
theorem test_SequencerIsNotStarved_hyps :
    (nopInFlight [.waitIdle] [.host, .host, .sequencer]).status.busy = true ∧
      (nopInFlight [.waitIdle] [.host, .host, .sequencer]).rstN = true ∧
      answers (steps 2 (nopInFlight [.waitIdle] [.host, .host, .sequencer]))
        (fun t => t.nextIsSequencer && t.env.script == [.waitIdle]) = true ∧
      { Env.empty with hostMoves := some 1 }.takeTurn.1 = .host ∧
      { Env.empty with hostMoves := some 1 }.takeTurn.2.takeTurn.1 = .sequencer := by
  decide +kernel

/-- A bounded WAIT_TOUCH in flight. -/
def waiting : State :=
  ((ready .hw true).writeRegister 0x14 2#32).accept (.waitTouch 0#8) (.pen .check)

theorem waiting_inv : waiting.Inv :=
  accept_inv (write_inv _ _ (ready_inv _ _) rfl) rfl rfl rfl rfl rfl nofun nofun (by decide)

/-- CommandsEnd: a command that is no wait, and a bounded wait. -/
theorem test_CommandsEnd_hyps :
    (nopInFlight [.waitIdle] [.host]).Inv ∧ (nopInFlight [.waitIdle] [.host]).status.busy = true ∧
      (nopInFlight [.waitIdle] [.host]).seq.inFlight = some (.nop 0#8) ∧
      waits (.nop 0#8) = false ∧ waiting.Inv ∧ waiting.status.busy = true ∧
      waiting.seq.inFlight = some (.waitTouch 0#8) ∧ waiting.seq.limit ≠ 0#32 :=
  ⟨nopInFlight_inv _ _, rfl, rfl, rfl, waiting_inv, rfl, rfl, by decide +kernel⟩

theorem test_BusyCmdWriteSetsOnlyOverrun_hyps :
    (nopInFlight [.write 0x08#8 0#32] [.host]).status.busy = true ∧
      (nopInFlight [.write 0x08#8 0#32] [.host]).rstN = true ∧
      (nopInFlight [.write 0x08#8 0#32] [.host]).env.takeTurn =
        (.host, (nopInFlight [.write 0x08#8 0#32] []).env) ∧
      (nopInFlight [.write 0x08#8 0#32] [.host]).Inv :=
  ⟨rfl, rfl, rfl, nopInFlight_inv _ _⟩

/-- CS_HELD = 1 after INIT. -/
def held (mode : TransportMode) (useIrq : Bool) : State :=
  { ready mode useIrq with
    status := { (ready mode useIrq).status with csHeld := true }
    pins := { (ready mode useIrq).pins with csN := false } }

/-- One state and word for each code of R257, and the word the block accepts. -/
theorem test_CmdWriteMeetsTheChecks_clauses :
    answers (step (writing 0x07#32 fresh)) (fun t => t.status.err == .illegalOp) ∧
      answers (step (writing 0x01#32 (ready .hw true))) (fun t => t.status.err == .reinit) ∧
      answers (step (writing 0x15#32 fresh)) (fun t => t.status.err == .notInit) ∧
      answers (step (writing 0x15#32 (held .hw true))) (fun t => t.status.err == .busHeld) ∧
      answers (step (writing 0x08#32 (held .hw false))) (fun t => t.status.err == .busHeld) ∧
      answers (step (writing 0x06#32 fresh)) (fun t => t.status.err == .badArg) ∧
      answers (step (writing 0x08#32 (held .hw true)))
        (fun t => t.status.err == .none && t.status.busy) := by decide +kernel

theorem test_AcceptanceLatchesOperands_hyps :
    fresh.status.busy = false ∧ check (.transform 0#8) fresh = .none ∧
      check (.init 0#8) fresh = .none ∧ check (.waitTouch 0#8) (ready .hw false) = .none := by
  decide +kernel

/-- NopOnlyClearsErr, SetCalCopiesTheStagedMatrix, TransformWritesPos: an idle block;
InitSelectsTheEngine: CFG unlocked too; SetPrecWritesPrec: both cases of n. -/
theorem test_idle_hyps :
    fresh.status.busy = false ∧ fresh.cfgLocked = false ∧ (1#8 : Byte) ≠ 0#8 := by decide

/-- HostFramesATransaction: both values of CS_HELD; TransportCommandsExchangeOneByte and
ReadAxisRunsItsPseudocode: INIT done, in both modes. -/
theorem test_bus_hyps :
    (ready .hw true).status.busy = false ∧ (ready .hw true).status.initDone = true ∧
      (ready .sw true).status.initDone = true ∧ (ready .hw true).status.csHeld = false ∧
      (held .hw true).status.csHeld = true ∧ (held .hw true).status.initDone = true ∧
      (held .hw true).status.busy = false := by decide

/-- ReadRawRunsItsPseudocode, MeasureRunsItsPseudocode, GatherRunsItsPseudocode,
ReadTouchRunsItsPseudocode, MeasureCountsItsTransactions, GatherCountsItsTransactions,
ReadTouchCountsItsTransactions: one block meets all. -/
theorem test_transaction_hyps :
    (ready .sw false).status.busy = false ∧ (ready .sw false).status.initDone = true ∧
      (ready .sw false).status.csHeld = false ∧ (ready .sw false).prec ≠ 0#8 ∧
      (ready .sw false).build.Legal :=
  ⟨rfl, rfl, rfl, by show precReset ≠ 0#8; decide, build_legal⟩

/-- IsTouchedRunsItsPseudocode, WaitsRunTheirPseudocode: a held bus with the pen line, a free one
without; BoundedWaitEnds: a bound; a wait that its first poll ends. -/
theorem test_presence_hyps :
    (held .hw true).cfg.useIrq = true ∧ (ready .hw false).status.csHeld = false ∧
      ({ held .hw true with waitLimit := 1#32 } : State).waitLimit ≠ 0#32 ∧
      (State.waitWhole true 0 1 0 (pen [false] (ready .hw true)).noError).isSome = true ∧
      (State.waitWhole true 1 1 0 (pen [true] (ready .hw true)).noError).isSome = true := by
  decide +kernel

/-- UnboundedWaitPollsOn: two polls of the pen line off target, and one raw-sample transaction whose
sample is at the rail. -/
theorem test_UnboundedWaitPollsOn_hyps :
    (pen [true, true, false] (ready .hw true)).cfg.useIrq = true ∧
      (pen [true, true, false] (ready .hw true)).waitLimit = 0#32 ∧
      (pen [true, true, false] (ready .hw true)).env.pen = List.replicate 2 true ++ [false] ∧
      (State.pollsOffTarget true 2 (pen [true, true, false] (ready .hw true)).noError).isSome = true ∧
      (ready .sw false).cfg.useIrq = false ∧ (ready .sw false).status.csHeld = false ∧
      (State.pollsOffTarget true 1
        (answering (List.replicate 40 false) (ready .sw false)).noError).isSome = true := by
  decide +kernel

/-- StepsBeforeCommitFrame and CommandsWriteOnlyTheirRegisters: a step before the commit. -/
theorem test_frame_hyps :
    (doing (.csAssert 0#8) .setCs (ready .hw true)).seq.inFlight = some (.csAssert 0#8) ∧
      answers (exec (.csAssert 0#8) (doing (.csAssert 0#8) .setCs (ready .hw true)))
        (fun t => t.status.busy) := by decide +kernel

theorem test_EnginesAreEquivalent_hyps : build.hwDiv % 2 = 0 := by decide

theorem test_BitsArriveMostSignificantFirst_hyps :
    (bitsOf 0xA5#8).length = 8 ∧ (msbFirst 0xABC#12).length = 12 := by decide

/-- OnlySetCsDrivesChipSelect, OneEventPerStep: a SetCS step of the machine. -/
theorem test_OnlySetCsDrivesChipSelect_hyps :
    answers (step (doing (.csAssert 0#8) .setCs (ready .hw true)))
        (fun t => t.pins.csN != (ready .hw true).pins.csN && t.hist == [.cs true]) = true ∧
      (doing (.csAssert 0#8) .setCs (ready .hw true)).nextIsReset = false ∧
      (hosting [.reset] [.sequencer]
        (doing (.csAssert 0#8) .setCs (ready .hw true))).nextIsReset = false ∧
      (hosting [.setRst false] [.host]
        (doing (.csAssert 0#8) .setCs (ready .hw true))).nextIsReset = true := by decide +kernel

/-- ReadPathsAgree, and the two modes of RawTransactionEvents: the answers to `readAxis` for V = 0x753: an echo, then the window of HW mode or
the twelve bits of SW mode. -/
theorem test_ReadPathsAgree_hyps :
    (bitsOf 0x5A#8).length = 8 ∧ (ready .hw true).status.modeEff = some .hw ∧
      (ready .sw true).status.modeEff = some .sw ∧
      ((answering (bitsOf 0x5A#8 ++ (true :: msbFirst 0x753#12 ++ [true, false, true]) ++ [])
        (ready .hw true)).readAxisWhole 0xD0#8).1 = 0x753#12 := by decide +kernel

/-- MeanIsExact at its bounds: one sample, and 255 samples at the rail. -/
theorem test_MeanIsExact_hyps :
    [(⟨0#12, 4095#12⟩ : Sample)].length = ({ fresh with prec := 1#8 } : State).prec.toNat ∧
      (List.replicate 255 (⟨4095#12, 0#12⟩ : Sample)).length =
        ({ fresh with prec := 255#8 } : State).prec.toNat := by decide +kernel

theorem test_MedianOfTheSortedValues_hyps :
    [100, 200, 300].Perm ([300#12, 100#12, 200#12].map BitVec.toNat) ∧
      [100, 200, 300].Pairwise (· ≤ ·) ∧ [100, 200].Perm ([200#12, 100#12].map BitVec.toNat) := by
  decide

theorem test_MedianLaws_hyps :
    [3#12, 1#12].Perm [1#12, 3#12] ∧ [3#12].length % 2 = 1 ∧
      ([⟨1#12, 5#12⟩, ⟨2#12, 6#12⟩].map Sample.x).Perm
        ([⟨2#12, 7#12⟩, ⟨1#12, 8#12⟩].map Sample.x) := by decide

/-- RoundingIsNearestEven: two ties, and the overflow bound (R10: ties to even) with the number below. -/
theorem test_RoundingIsNearestEven_hyps :
    (0 : Nat) < 2 ^ 149 ∧ fl false (2 ^ 24 + 1) 1 = .fin false (2 ^ 24) ∧
      fl true (2 ^ 24 + 3) 1 = .fin true (2 ^ 24 + 4) ∧ fl false 1 2 = .fin false 0 ∧
      fl false ((2 ^ 25 - 1) * 2 ^ 252) 1 = .inf false ∧
      fl false ((2 ^ 25 - 1) * 2 ^ 252 - 1) 1 = .fin false ((2 ^ 24 - 1) * 2 ^ 253) := by
  decide +kernel

/-- TransformIsRoundedLeftToRight: patterns of each kind, and values (of one unit and none) for each
clause of the sum and the quotient. -/
theorem test_TransformIsRoundedLeftToRight_hyps :
    (0x3F333333#32 : Word).extractLsb' 23 8 ≠ 255#8 ∧ (0x7F800000#32 : Word).extractLsb' 23 8 = 255#8 ∧
      unitsValue false 1 + unitsValue false 0 ≠ 0 ∧ unitsValue false 1 + unitsValue true 1 = 0 ∧
      (1 : Nat) ≠ 0 := by
  refine ⟨by decide, by decide, ?_, ?_, by decide⟩
  · norm_num [unitsValue]
  · norm_num [unitsValue]

/-- ClampKeepsOnlyPlausibleCoordinates: the ends of the range on which the clamp modes agree, and R214's
−0.5, whose `trunc` is 0. -/
theorem test_ClampKeepsOnlyPlausibleCoordinates_hyps :
    truncUnits true (2 ^ 148) = 0 ∧
    truncUnits true (5535 * 2 ^ 149) = -5535 ∧ truncUnits false (65535 * 2 ^ 149) = 65535 := by
  decide +kernel

theorem test_ResetMatrixGivesZero_hyps : finiteNonzero build.rescale = true := by decide

theorem test_UndetectedTouchCostsTheGate_inv : (pen [true] (ready .hw true)).Inv :=
  env_inv _ (ready_inv _ _)

theorem test_UndetectedTouchCostsTheGate_hyps :
    (pen [true] (ready .hw true)).noError.touchedWhole.1 = false ∧
      (answering (List.replicate 80 false) (ready .hw false)).noError.touchedWhole.1 = false := by
  decide +kernel

theorem test_RegisterLayouts_hyps : build.mMax ≤ 16 := by decide

/-- RegisterMapReads: entries of MBUF on both sides of M_MAX, and the borders of the reserved words. -/
theorem test_RegisterMapReads_clauses :
    ({ fresh with mbuf := Vector.replicate 16 ⟨1#12, 2#12⟩ } : State).memRead (false, false) 0x8C#8 =
        0x00020001#32 ∧
      ({ fresh with mbuf := Vector.replicate 16 ⟨1#12, 2#12⟩ } : State).memRead (false, false)
        0x90#8 = 0#32 ∧
      fresh.memRead (false, false) 0x13#8 = 3#32 ∧ fresh.memRead (true, true) 0x6C#8 = 0x19#32 ∧
      fresh.memRead (false, false) 0xC0#8 = 0#32 := by decide +kernel

/-- RegisterWrites: CFG with a legal and with the reserved MODE, and CMD_OVR. -/
theorem test_RegisterWrites_clauses :
    (fresh.writeRegister 0x04 0x6#32).cfg = ⟨.software, true⟩ ∧
      ((fresh.writeRegister 0x04 0x6#32).writeRegister 0x04 0x3#32).cfg = ⟨.software, false⟩ ∧
      ((ready .hw true).writeRegister 0x04 0x2#32).cfg = (ready .hw true).cfg ∧
      (fresh.dropCmd.writeRegister 0x0C 0x20#32).status.cmdOvr = false ∧
      (fresh.dropCmd.writeRegister 0x0C 0x1F#32).status.cmdOvr = true := by decide +kernel

theorem test_HostActionSteps_hyps :
    (hosting [.read 0x0C#8] [] fresh).status.busy = false ∧ wordAddr 0x17#8 ≠ 0x08 ∧
      (nopInFlight [.waitIdle] [.host]).env.takeTurn = (.host, (nopInFlight [.waitIdle] []).env) ∧
      (nopInFlight [.waitIdle] [.host]).status.busy = true := by decide +kernel

theorem test_ReadsHaveNoSideEffect_hyps : wordAddr 0x6B#8 ≠ 0x6C ∧ wordAddr 0x6F#8 = 0x6C := by
  decide

/-- ResetAndHeldInReset: the host's step with a command in flight and idle, for each of its three actions;
R282: driving `rst_n` low ends the command. -/
theorem test_ResetAndHeldInReset_reset_hyps :
    (nopInFlight [.reset] [.host]).status.busy = true ∧ (nopInFlight [.reset] [.host]).rstN = true ∧
      (nopInFlight [.reset] [.host]).env.takeTurn = (.host, (nopInFlight [.reset] []).env) ∧
      (hosting [.reset] [] fresh).status.busy = false ∧
      (nopInFlight [.setRst false] [.host]).env.takeTurn =
        (.host, (nopInFlight [.setRst false] []).env) ∧
      answers (step (nopInFlight [.setRst false] [.host])) (fun t => !t.rstN && !t.status.busy) = true ∧
      (hosting [.setRst false] [] (ready .hw true)).status.busy = false ∧
      answers (step (hosting [.setRst false] [] (ready .hw true)))
        (fun t => !t.rstN && !t.status.initDone) = true ∧
      answers (step (hosting [.setRst true] [] (ready .hw true)))
        (fun t => t.rstN && t.status.initDone) = true := by decide +kernel

theorem test_ResetAndHeldInReset_held_hyps :
    (hosting [.read 0x10#8] [] (fresh.driveReset false)).rstN = false ∧
      answers (step (hosting [.read 0x10#8] [] (fresh.driveReset false)))
        (fun t => t.rdata == 0#32) ∧
      answers (step (hosting [.setRst true] [] (fresh.driveReset false))) (fun t => t.rstN) := by
  decide +kernel

/-- StepKeepsTheInvariant, StepNeverStops, NothingOnTheBusBeforeInit: a state of the invariant before
INIT, idle and with a command in flight. -/
theorem test_invariant_hyps :
    fresh.Inv ∧ (nopInFlight [] []).Inv ∧ fresh.status.initDone = false :=
  ⟨fresh_inv, nopInFlight_inv _ _, rfl⟩

/-- ConfigurationIsFixedAfterInit. -/
theorem test_ConfigurationIsFixedAfterInit_hyps :
    (ready .sw true).Inv ∧ (ready .sw true).status.initDone = true ∧
      (ready .sw true).nextIsReset = false :=
  ⟨ready_inv _ _, rfl, rfl⟩

/-- ResultsChangeOnlyAtTheirSteps: a commit that changes PREC. -/
theorem test_ResultsChangeOnlyAtTheirSteps_results_hyps :
    answers (step (doing (.setPrec 5#8) .commit fresh)) (fun t => t.visible != fresh.visible) = true ∧
      (doing (.setPrec 5#8) .commit fresh).nextIsReset = false := by decide +kernel

/-- ResultsChangeOnlyAtTheirSteps: a measurement that ends with PREC = 1. -/
theorem test_ResultsChangeOnlyAtTheirSteps_mbuf_hyps :
    answers (step { having (fun r => { r with x := 7#12 })
        (doing (.gather 0#8) (.raw .sample .csOff)
          { ready .hw true with seq := { fresh.seq with j := 1 } }) with prec := 1#8 })
      (fun t => t.mbuf != fresh.mbuf) = true := by decide +kernel

/-- HostAccessesDoNotReachTheCommand, whose second clause covers a read of PINS. -/
theorem test_HostAccessesDoNotReachTheCommand_hyps :
    (nopInFlight [] []).Inv ∧ (nopInFlight [] []).status.busy = true ∧
      (nopInFlight [] []).seq.inFlight = some (.nop 0#8) ∧
      answers (exec (.nop 0#8) (nopInFlight [] [])) (fun t => !t.status.busy) = true :=
  ⟨nopInFlight_inv _ _, rfl, rfl, by decide +kernel⟩

end Sys2Proof.Tests
end

section
/-! PROOFS. Statements of 00_scope.md about binary32 rounding: `fl` is the nearest representable value. -/

namespace Sys2Proof.Machine

/-- How far apart two numbers are. -/
abbrev apart (a b : Nat) : Nat :=
  ((a : Int) - b).natAbs

/-- The two ways to round: down to the quotient, or up to the next number; a tie goes to the even
one. -/
theorem roundNearestEven_cases (num den : Nat) :
    (roundNearestEven num den = num / den ∧ 2 * (num % den) ≤ den ∧
      (2 * (num % den) = den → num / den % 2 = 0)) ∨
    (roundNearestEven num den = num / den + 1 ∧ den ≤ 2 * (num % den) ∧
      (2 * (num % den) = den → num / den % 2 = 1)) := by
  unfold roundNearestEven
  dsimp only
  split_ifs <;> omega

/-- No whole number is nearer than the rounded one. -/
theorem roundNearestEven_nearest {num den : Nat} (hd : 0 < den) (m : Nat) :
    apart (roundNearestEven num den * den) num ≤ apart (m * den) num := by
  have hdiv := Nat.div_add_mod' num den
  have hmod := Nat.mod_lt num hd
  have hm : m * den ≤ num / den * den ∨ (num / den + 1) * den ≤ m * den := by
    obtain h | h := Nat.lt_or_ge (num / den) m
    · exact .inr (Nat.mul_le_mul_right den h)
    · exact .inl (Nat.mul_le_mul_right den h)
  rw [Nat.add_one_mul (num / den)] at hm
  obtain ⟨hr, hle, -⟩ | ⟨hr, hle, -⟩ := roundNearestEven_cases num den
  · rw [hr, apart, apart]; omega
  · rw [hr, Nat.add_one_mul (num / den), apart, apart]; omega

/-- On a tie the rounded number is even. -/
theorem roundNearestEven_even_of_tie {num den : Nat} (hd : 0 < den)
    (h : 2 * apart (roundNearestEven num den * den) num = den) :
    roundNearestEven num den % 2 = 0 := by
  have hdiv := Nat.div_add_mod' num den
  have hmod := Nat.mod_lt num hd
  obtain ⟨hr, hle, htie⟩ | ⟨hr, hle, htie⟩ := roundNearestEven_cases num den
  · rw [hr, apart] at h
    rw [hr]; omega
  · rw [hr, Nat.add_one_mul (num / den), apart] at h
    rw [hr]; omega

theorem roundNearestEven_le {num den b : Nat} (h : num / den < b) :
    roundNearestEven num den ≤ b := by
  obtain ⟨hr, -, -⟩ | ⟨hr, -, -⟩ := roundNearestEven_cases num den <;> omega

/-- From the last place up `q` has at most 24 bits. -/
theorem div_lastPlace_lt (q : Nat) : q / 2 ^ lastPlace q < 2 ^ 24 := by
  rw [Nat.div_lt_iff_lt_mul (by positivity), ← pow_add]
  exact Nat.lt_log2_self.trans_le (Nat.pow_le_pow_right two_pos (by unfold lastPlace; omega))

/-- Where the last place is above the unit, the significand has all its 24 bits. -/
theorem two_pow_lastPlace_le {q : Nat} (h : 0 < lastPlace q) : 2 ^ 23 * 2 ^ lastPlace q ≤ q := by
  have hk : 23 + lastPlace q = Nat.log2 q := by unfold lastPlace at *; omega
  have hq : q ≠ 0 := by rintro rfl; simp [lastPlace] at h
  rw [← pow_add, hk]
  exact Nat.log2_self_le hq

/-- The number of units `fl` gives before the overflow check: a whole number of last places. -/
def flUnits (num den : Nat) : Nat :=
  roundNearestEven num (den * 2 ^ lastPlace (num / den)) * 2 ^ lastPlace (num / den)

theorem fl_eq (neg : Bool) (num den : Nat) :
    fl neg num den = if 2 ^ 277 ≤ flUnits num den then .inf neg else .fin neg (flUnits num den) :=
  rfl

/-- The significand that `fl` rounds to is at most 2^24. -/
theorem significand_le (num den : Nat) :
    roundNearestEven num (den * 2 ^ lastPlace (num / den)) ≤ 2 ^ 24 := by
  apply roundNearestEven_le
  rw [← Nat.div_div_eq_div_mul]
  exact div_lastPlace_lt _

/-- A rounded-up significand of 2^24 is the significand 2^23 one place higher. -/
theorem flUnits_representable (num den : Nat) :
    ∃ m e : Nat, m < 2 ^ 24 ∧ flUnits num den = m * 2 ^ e := by
  obtain h | h := (significand_le num den).lt_or_eq
  · exact ⟨_, _, h, rfl⟩
  · refine ⟨2 ^ 23, lastPlace (num / den) + 1, by norm_num, ?_⟩
    rw [flUnits, h]; ring

theorem flUnits_mul (num den : Nat) :
    flUnits num den * den = roundNearestEven num (den * 2 ^ lastPlace (num / den)) *
      (den * 2 ^ lastPlace (num / den)) := by
  unfold flUnits; ring

/-- A multiple of the last place is no nearer than what `fl` gives. -/
theorem flUnits_nearest_multiple {num den : Nat} (hd : 0 < den) (m : Nat) :
    apart (flUnits num den * den) num ≤ apart (m * 2 ^ lastPlace (num / den) * den) num := by
  rw [flUnits_mul, Nat.mul_assoc m, Nat.mul_comm (2 ^ _) den]
  exact roundNearestEven_nearest (by positivity) m

/-- No representable magnitude is nearer than what `fl` gives: one finer than the last place lies below
the binade of the exact number, and the binade's lower end is a multiple of the last place. -/
theorem flUnits_nearest {num den : Nat} (hd : 0 < den) {m : Nat} (e : Nat) (hm : m < 2 ^ 24) :
    apart (flUnits num den * den) num ≤ apart (m * 2 ^ e * den) num := by
  obtain he | he := Nat.lt_or_ge e (lastPlace (num / den))
  · have hlow := flUnits_nearest_multiple (num := num) hd (2 ^ 23)
    have hbinade : 2 ^ 23 * 2 ^ lastPlace (num / den) * den ≤ num :=
      (Nat.mul_le_mul_right den (two_pow_lastPlace_le (by omega))).trans (Nat.div_mul_le_self num den)
    have hfiner : m * 2 ^ e * den ≤ 2 ^ 23 * 2 ^ lastPlace (num / den) * den := by
      apply Nat.mul_le_mul_right
      calc m * 2 ^ e ≤ 2 ^ 24 * 2 ^ e := Nat.mul_le_mul_right _ hm.le
        _ = 2 ^ 23 * 2 ^ (e + 1) := by ring
        _ ≤ 2 ^ 23 * 2 ^ lastPlace (num / den) :=
          Nat.mul_le_mul_left _ (Nat.pow_le_pow_right two_pos he)
    unfold apart at *; omega
  · have h := flUnits_nearest_multiple (num := num) hd (m * 2 ^ (e - lastPlace (num / den)))
    rwa [Nat.mul_assoc m, ← pow_add, Nat.sub_add_cancel he] at h

/-- On a tie the significand is even. -/
theorem flUnits_even_of_tie {num den : Nat} (hd : 0 < den)
    (h : 2 * apart (flUnits num den * den) num =
      den * 2 ^ lastPlace (num / den)) :
    flUnits num den / 2 ^ lastPlace (num / den) % 2 = 0 := by
  rw [flUnits_mul] at h
  rw [flUnits, Nat.mul_div_cancel _ (by positivity)]
  exact roundNearestEven_even_of_tie (by positivity) h

/-- `fl` overflows only from the midpoint of the largest finite magnitude and 2^128 on: below it the
largest finite magnitude is nearer than anything from 2^128 on. -/
theorem overflowBound_le {num den : Nat} (hd : 0 < den) (h : 2 ^ 277 ≤ flUnits num den) :
    (2 ^ 25 - 1) * 2 ^ 252 * den ≤ num := by
  have hnear := flUnits_nearest (num := num) hd (m := 2 ^ 24 - 1) 253 (by norm_num)
  have hbig : 2 ^ 25 * (2 ^ 252 * den) ≤ flUnits num den * den := by
    rw [← Nat.mul_assoc]
    rw [show 277 = 25 + 252 from rfl, pow_add] at h
    exact Nat.mul_le_mul_right den h
  have hmax : (2 ^ 24 - 1) * 2 ^ 253 * den = (2 ^ 25 - 2) * (2 ^ 252 * den) := by
    rw [pow_succ 2 252]; ring
  rw [hmax] at hnear
  rw [Nat.mul_assoc]
  generalize 2 ^ 252 * den = half at *
  unfold apart at hnear
  omega

/-- Settles O40: the four properties of `flUnits`, and the overflow check. -/
theorem roundingIsNearestEven : Obligations.RoundingIsNearestEven := by
  unfold Obligations.RoundingIsNearestEven
  intro neg num den hd
  rw [fl_eq]
  split_ifs with hover
  · exact .inr ⟨rfl, overflowBound_le hd hover⟩
  · exact .inl ⟨_, rfl, Nat.lt_of_not_le hover, flUnits_representable num den,
      fun m e hm => flUnits_nearest hd e hm, flUnits_even_of_tie hd⟩

end Sys2Proof.Machine
end

section
/-! PROOFS. Statements of 00_scope.md about one step: whose it is, what a host action does in it, and how
much of the history it records. -/

namespace Sys2Proof.Machine

/-! ### The host's turn -/

/-- The next step is the host's, and `e` are the inputs it starts from (R6): the sequencer has no step,
or it has one and the turn taken is the host's. -/
theorem State.nextMove_of_hostTurn {s : State} {a : HostAction} {rest : List HostAction} {e : Env}
    (hs : s.env.script = a :: rest)
    (he : s.sequencerReady = false ∧ e = s.env ∨
      s.sequencerReady = true ∧ s.env.takeTurn = (.host, e)) :
    s.nextMove = { s with env := e }.hostMove a rest := by
  obtain ⟨hq, rfl⟩ | ⟨hq, ht⟩ := he
  · simp [State.nextMove, hs, hq]
  · simp [State.nextMove, hs, hq, ht]

/-- A write to a word other than CMD ends in the register write alone (R65). -/
theorem State.hostWrite_register {s : State} {addr : Byte} {w : Word} (hr : s.rstN = true)
    (ha : wordAddr addr ≠ 0x08) :
    s.hostWrite addr w = .done (s.writeRegister (wordAddr addr) w) := by
  simp [State.hostWrite, hr, ha]

/-- A read of STATUS out of reset gives the register and draws nothing (R64). -/
theorem State.hostRead_status {s : State} (hr : s.rstN = true) :
    s.hostRead 0x0C#8 = s.gotRead 0x0C#8 s.status.word := by
  have ha : wordAddr 0x0C#8 = 0x0C := by decide
  simp [State.hostRead, State.memRead, State.register, ha, hr]

/-- Settles O49: the host has the turn, so the step is its action's move. -/
theorem hostActionSteps : Obligations.HostActionSteps := by
  unfold Obligations.HostActionSteps
  intro s a rest e hs hr he
  have hm : s.nextMove = { s with env := e }.hostMove a rest :=
    State.nextMove_of_hostTurn hs (by simpa [State.sequencerReady, hr] using he)
  refine ⟨?write, ?read, ?waitIdle⟩
  case write =>
    rintro addr w rfl ha
    have hw := State.hostWrite_register (s := { s with env := { e with script := rest } }) (w := w)
      hr ha
    simp only [step, hm, State.hostMove, State.setScript, hw]
  case read =>
    rintro addr rfl
    simp only [step, hm, State.hostMove, State.setScript]
  case waitIdle =>
    rintro rfl
    have hread := State.hostRead_status (s := { s with env := { e with
      script := if s.status.busy then .waitIdle :: rest else rest } }) hr
    simp only [step, hm, State.hostMove, State.setScript, hread, State.gotRead]

/-- `t` has the history of `s`, or one event more (R296). -/
def AtMostOneEvent (s t : State) : Prop :=
  t.hist = s.hist ∨ ∃ e, t.hist = s.hist ++ [e]

/-! ### One primitive records one event -/

theorem State.axisStep_atMostOneEvent (c : Byte) (p : AxisPos) (s : State) :
    AtMostOneEvent s (s.axisStep c p).2 := by
  cases p <;> exact .inr ⟨_, rfl⟩

/-- The computation around the last primitive of a transaction or a check records nothing. -/
def Silent {α : Type} (done : α → State → State) : Prop :=
  ∀ v t, (done v t).hist = t.hist

theorem State.rawStep_atMostOneEvent {done : Sample → State → State} (hd : Silent done) {u : Use}
    {p : RawPos} {s : State} : AtMostOneEvent s (s.rawStep u p done) := by
  cases p with
  | csOn => exact .inr ⟨_, rfl⟩
  | csOff => exact .inr ⟨.cs false, hd _ _⟩
  | x a =>
    have he := s.axisStep_atMostOneEvent s.build.cmdX a
    simp only [State.rawStep]
    split <;> next h => rw [h] at he; exact he
  | y a =>
    have he := s.axisStep_atMostOneEvent s.build.cmdY a
    simp only [State.rawStep]
    split <;> next h => rw [h] at he; exact he

theorem State.sampleStep_atMostOneEvent {done : Bool → State → State} (hd : Silent done) {u : Use}
    {p : RawPos} {s : State} : AtMostOneEvent s (s.sampleStep u p done) :=
  State.rawStep_atMostOneEvent fun v t => hd v.valid t

theorem State.penStep_atMostOneEvent {done : Bool → State → State} (hd : Silent done) {s : State} :
    AtMostOneEvent s (s.penStep done) :=
  .inr ⟨_, hd _ _⟩

/-! ### The computations between primitives record nothing -/

theorem sampleDone_silent {done : Sample → State → State} (hd : Silent done) :
    Silent (sampleDone done) := by
  intro v t
  unfold sampleDone
  split
  · rfl
  · exact hd _ _

theorem measurementDone_silent : Silent measurementDone := fun _ _ => rfl

theorem checkDone_silent : Silent checkDone := by
  intro b t
  unfold checkDone
  split_ifs <;> rfl

theorem isTouchedDone_silent : Silent isTouchedDone := fun _ _ => rfl

theorem gateDone_silent : Silent gateDone := fun _ _ => rfl

theorem waitDone_silent (target : Bool) : Silent (waitDone target) := by
  intro b t
  unfold waitDone
  dsimp only
  split_ifs <;> rfl

theorem readTouchCommit_hist (s : State) : (readTouchCommit s).hist = s.hist := by
  unfold readTouchCommit
  split <;> rfl

/-! ### The commands' pseudocode -/

theorem stepReadAxis_atMostOneEvent {s t : State} (h : stepReadAxis s = some t) :
    AtMostOneEvent s t := by
  unfold stepReadAxis at h
  split at h
  · next p _ =>
    have he := s.axisStep_atMostOneEvent s.seq.arg p
    split at h <;> next hstep => cases h; rw [hstep] at he; exact he
  all_goals cases h
  exact .inl rfl

theorem stepReadRaw_atMostOneEvent {s t : State} (h : stepReadRaw s = some t) :
    AtMostOneEvent s t := by
  unfold stepReadRaw at h
  split at h <;> cases h
  · exact State.rawStep_atMostOneEvent (by intro _ _; rfl)
  · exact .inl rfl

theorem stepMeasure_atMostOneEvent {s t : State} (h : stepMeasure s = some t) :
    AtMostOneEvent s t := by
  unfold stepMeasure at h
  split at h <;> cases h
  · exact State.rawStep_atMostOneEvent (by intro _ _; rfl)
  · exact State.rawStep_atMostOneEvent (sampleDone_silent (by intro _ _; rfl))
  · exact .inl rfl

theorem gatherStep_atMostOneEvent {s t : State} (h : gatherStep s = some t) :
    AtMostOneEvent s t := by
  unfold gatherStep at h
  split at h <;> cases h
  · exact State.rawStep_atMostOneEvent (by intro _ _; rfl)
  · exact State.rawStep_atMostOneEvent (sampleDone_silent measurementDone_silent)
  · exact State.penStep_atMostOneEvent checkDone_silent
  · exact State.sampleStep_atMostOneEvent checkDone_silent

theorem stepGather_atMostOneEvent {s t : State} (h : stepGather s = some t) :
    AtMostOneEvent s t := by
  unfold stepGather at h
  split at h
  · cases h; exact .inl rfl
  all_goals exact gatherStep_atMostOneEvent h

theorem stepReadTouch_atMostOneEvent {s t : State} (h : stepReadTouch s = some t) :
    AtMostOneEvent s t := by
  unfold stepReadTouch at h
  split at h
  · cases h; exact State.penStep_atMostOneEvent gateDone_silent
  · cases h; exact State.sampleStep_atMostOneEvent gateDone_silent
  · cases h; exact .inl (readTouchCommit_hist s)
  iterate 8 (· exact gatherStep_atMostOneEvent h)
  all_goals cases h

theorem stepIsTouched_atMostOneEvent {s t : State} (h : stepIsTouched s = some t) :
    AtMostOneEvent s t := by
  unfold stepIsTouched at h
  split at h <;> cases h
  · exact State.penStep_atMostOneEvent isTouchedDone_silent
  · exact State.sampleStep_atMostOneEvent isTouchedDone_silent
  · exact .inl rfl

theorem stepWait_atMostOneEvent {target : Bool} {s t : State} (h : stepWait target s = some t) :
    AtMostOneEvent s t := by
  unfold stepWait at h
  split at h <;> cases h
  · exact State.penStep_atMostOneEvent (waitDone_silent target)
  · exact State.sampleStep_atMostOneEvent (waitDone_silent target)
  · exact .inl rfl

/-- One step of the pseudocode of a command, the `body` that `exec` hands to `State.command`. -/
def stepOf : Instr → State → Option State
  | .nop _ => stepNop
  | .init _ => stepInit
  | .readTouch _ => stepReadTouch
  | .waitTouch _ => stepWait true
  | .waitRelease _ => stepWait false
  | .setCal _ => stepSetCal
  | .setPrec _ => stepSetPrec
  | .isTouched _ => stepIsTouched
  | .measure _ => stepMeasure
  | .gather _ => stepGather
  | .transform _ => stepTransform
  | .csAssert _ => stepCsAssert
  | .csDeassert _ => stepCsDeassert
  | .xferWrite _ => stepXferWrite
  | .xferRead _ => stepXferRead
  | .readAxis _ => stepReadAxis
  | .readRaw _ => stepReadRaw

/-- Every command is `State.command` of its own start position and pseudocode. -/
theorem exec_eq_command (i : Instr) (s : State) :
    exec i s = s.command i (startPos i s) (stepOf i) := by
  cases i <;> rfl

theorem stepOf_atMostOneEvent {i : Instr} {s t : State} (h : stepOf i s = some t) :
    AtMostOneEvent s t := by
  cases i
  case readTouch => exact stepReadTouch_atMostOneEvent h
  case waitTouch => exact stepWait_atMostOneEvent h
  case waitRelease => exact stepWait_atMostOneEvent h
  case isTouched => exact stepIsTouched_atMostOneEvent h
  case measure => exact stepMeasure_atMostOneEvent h
  case gather => exact stepGather_atMostOneEvent h
  case readAxis => exact stepReadAxis_atMostOneEvent h
  case readRaw => exact stepReadRaw_atMostOneEvent h
  case csAssert | csDeassert | xferWrite | xferRead =>
    simp only [stepOf, stepCsAssert, stepCsDeassert, stepXferWrite, stepXferRead] at h
    split at h <;> cases h
    · exact .inr ⟨_, rfl⟩
    · exact .inl rfl
  case nop | init | setCal | setPrec | transform =>
    simp only [stepOf, stepNop, stepInit, stepSetCal, stepSetPrec, stepTransform] at h
    split at h <;> cases h
    exact .inl rfl

theorem State.submit_hist (i : Instr) (p : Pos) (s : State) : (s.submit i p).hist = s.hist := by
  unfold State.submit
  split <;> rfl

/-- A meaning records at most one event, and none at an acceptance, a refusal or a drop. -/
theorem exec_hist {i : Instr} {s t : State} (h : exec i s = .next t) :
    t.hist = s.hist ∨ s.status.busy = true ∧ ∃ e, t.hist = s.hist ++ [e] := by
  rw [exec_eq_command] at h
  obtain ⟨-, he⟩ | ⟨hb, -, ⟨u, hu, he⟩ | ⟨-, he⟩⟩ | ⟨-, -, he⟩ :=
    s.command_cases i (startPos i s) (stepOf i)
  all_goals rw [he] at h; cases h
  · exact .inl (s.submit_hist i _)
  · exact (stepOf_atMostOneEvent hu).imp_right fun hev => ⟨hb, hev⟩
  · exact .inl rfl

/-! ### One step of the machine -/

theorem State.writeRegister_hist (a : Nat) (w : Word) (s : State) :
    (s.writeRegister a w).hist = s.hist := by
  unfold State.writeRegister
  split <;> (try split) <;> rfl

theorem State.hostRead_hist (addr : Byte) (s : State) : (s.hostRead addr).hist = s.hist := by
  unfold State.hostRead
  split <;> rfl

theorem State.driveReset_hist (level : Bool) (s : State) : (s.driveReset level).hist = s.hist := by
  cases level <;> rfl

/-- What a host write does (R65, R84, R85, R256, R280): ignored in reset, a register written, and for CMD
dropped, run or refused. -/
theorem State.hostWrite_cases (addr : Byte) (w : Word) (s : State) :
    (s.rstN = false ∧ s.hostWrite addr w = .done s) ∨
    (s.rstN = true ∧ wordAddr addr ≠ 0x08 ∧
      s.hostWrite addr w = .done (s.writeRegister (wordAddr addr) w)) ∨
    (s.rstN = true ∧ wordAddr addr = 0x08 ∧
      ((s.status.busy = true ∧ s.hostWrite addr w = .done s.dropCmd) ∨
        (s.status.busy = false ∧ ∃ i, decode w = .ok i ∧ s.hostWrite addr w = .run i s) ∨
        (s.status.busy = false ∧ ∃ err, decode w = .error err ∧
          s.hostWrite addr w = .done (s.raiseCmdError .illegalOp)))) := by
  cases hr : s.rstN
  · exact .inl ⟨rfl, by simp [State.hostWrite, hr]⟩
  · by_cases ha : wordAddr addr = 0x08
    · refine .inr (.inr ⟨rfl, ha, ?_⟩)
      have hcmd : s.hostWrite addr w = s.writeCmd w := by simp [State.hostWrite, hr, ha]
      rw [hcmd, State.writeCmd]
      cases s.status.busy with
      | true => exact .inl ⟨rfl, rfl⟩
      | false =>
        cases decode w with
        | ok i => exact .inr (.inl ⟨rfl, i, rfl, rfl⟩)
        | error err => exact .inr (.inr ⟨rfl, err, rfl, rfl⟩)
    · exact .inr (.inl ⟨rfl, ha, State.hostWrite_register hr ha⟩)

/-- A host action ends at once with nothing recorded, or is the CMD write of a command. -/
theorem State.hostMove_cases (a : HostAction) (rest : List HostAction) (s : State) :
    (∃ u, s.hostMove a rest = .done u ∧ u.hist = s.hist) ∨
      ∃ i, s.hostMove a rest = .run i (s.setScript rest) := by
  cases a with
  | write addr w =>
    obtain ⟨-, h⟩ | ⟨-, -, h⟩ | ⟨-, -, ⟨-, h⟩ | ⟨-, i, -, h⟩ | ⟨-, err, -, h⟩⟩ :=
      (s.setScript rest).hostWrite_cases addr w
    · exact .inl ⟨_, h, rfl⟩
    · exact .inl ⟨_, h, State.writeRegister_hist _ _ _⟩
    · exact .inl ⟨_, h, rfl⟩
    · exact .inr ⟨i, h⟩
    · exact .inl ⟨_, h, rfl⟩
  | read addr => exact .inl ⟨_, rfl, State.hostRead_hist _ _⟩
  | waitIdle => exact .inl ⟨_, rfl, State.hostRead_hist _ _⟩
  | reset => exact .inl ⟨_, rfl, rfl⟩
  | setRst level => exact .inl ⟨_, rfl, State.driveReset_hist _ _⟩

/-- Who moves (R6): the sequencer, the host, or nobody. -/
theorem State.nextMove_cases (s : State) :
    (s.nextIsSequencer = true ∧ ∃ e, (e = s.env ∨ e = s.env.takeTurn.2) ∧
      s.nextMove = { s with env := e }.sequencerMove) ∨
    (s.nextIsSequencer = false ∧ ∃ a rest e, s.env.script = a :: rest ∧
      (s.sequencerReady = false ∧ e = s.env ∨
        s.sequencerReady = true ∧ s.env.takeTurn = (.host, e)) ∧
      s.nextMove = { s with env := e }.hostMove a rest) ∨
    (s.sequencerReady = false ∧ s.env.script = [] ∧ s.nextMove = .done s) := by
  cases hs : s.env.script with
  | nil =>
    cases hq : s.sequencerReady
    · exact .inr (.inr ⟨rfl, rfl, by simp [State.nextMove, hs, hq]⟩)
    · exact .inl ⟨by simp [State.nextIsSequencer, hs, hq], s.env, .inl rfl,
        by simp [State.nextMove, hs, hq]⟩
  | cons a rest =>
    cases hq : s.sequencerReady
    · exact .inr (.inl ⟨by simp [State.nextIsSequencer, hq], a, rest, s.env, rfl, .inl ⟨rfl, rfl⟩,
        State.nextMove_of_hostTurn hs (.inl ⟨hq, rfl⟩)⟩)
    · rcases ht : s.env.takeTurn with ⟨_ | _, e⟩
      · exact .inr (.inl ⟨by simp [State.nextIsSequencer, hs, hq, ht], a, rest, e, rfl,
          .inr ⟨rfl, rfl⟩, State.nextMove_of_hostTurn hs (.inr ⟨hq, ht⟩)⟩)
      · exact .inl ⟨by simp [State.nextIsSequencer, hs, hq, ht], e, .inr rfl,
          by simp [State.nextMove, hs, hq, ht]⟩

/-- A step is a meaning run in a state that differs in its inputs alone, or ends with nothing recorded. -/
theorem step_runs_or_silent {s t : State} (h : step s = .next t) :
    (∃ i e, exec i { s with env := e } = .next t) ∨ t.hist = s.hist := by
  unfold step at h
  obtain ⟨-, e, -, hm⟩ | ⟨-, a, rest, e, -, -, hm⟩ | ⟨-, -, hm⟩ := s.nextMove_cases
  · rw [hm, State.sequencerMove] at h
    cases hi : s.seq.inFlight with
    | none => simp [hi] at h
    | some i => exact .inl ⟨i, e, by simpa [hi] using h⟩
  · obtain ⟨u, hu, hist⟩ | ⟨i, hi⟩ := { s with env := e }.hostMove_cases a rest
    · rw [hm, hu] at h
      cases h
      exact .inr hist
    · rw [hm, hi] at h
      exact .inl ⟨i, _, h⟩
  · rw [hm] at h
    cases h
    exact .inr rfl

/-- Settles O59: a step either runs a meaning, which records at most one event, or records none. -/
theorem oneEventPerStep : Obligations.OneEventPerStep := by
  unfold Obligations.OneEventPerStep
  intro s t h
  obtain ⟨i, e, hrun⟩ | hist := step_runs_or_silent h
  · exact exec_hist (s := { s with env := e }) hrun
  · exact .inl hist

end Sys2Proof.Machine
end

section
/-! PROOFS. Statements of 10_state.md about the invariant: what each command commits, and that its steps,
its acceptance and the host's actions keep the invariant, so that every step of the machine does. -/

namespace Sys2Proof.Machine

/-! ### What a command commits -/

/-- The state in which the commit of a command leaves the block (R86): the `commit` arm of its
pseudocode. -/
def commitOf : Instr → State → State
  | .nop _, s => s.commit .none
  | .init _, s => initCommit s
  | .readTouch _, s => readTouchCommit s
  | .waitTouch _, s => waitCommit s
  | .waitRelease _, s => waitCommit s
  | .setCal _, s => { s with calAct := s.cal }.commit .none
  | .setPrec _, s => { s with prec := s.seq.arg }.commit .none
  | .isTouched _, s => isTouchedCommit s
  | .measure _, s => { s with meas := s.seq.res.mean }.commit .none
  | .gather _, s => (s.withGathered s.seq.res.complete).commit .none
  | .transform _, s => { s with coord := xform s.build s.calAct s.seq.tin }.commit .none
  | .csAssert _, s => { s with status := { s.status with csHeld := true } }.commit .none
  | .csDeassert _, s => { s with status := { s.status with csHeld := false } }.commit .none
  | .xferWrite _, s => s.commit .none
  | .xferRead _, s => { s with xfer := { s.xfer with rxByte := s.seq.res.byte } }.commit .none
  | .readAxis _, s => { s with xfer := { s.xfer with axis := s.seq.res.axis } }.commit .none
  | .readRaw _, s => { s with raw := ⟨s.seq.res.x, s.seq.res.y⟩ }.commit .none

/-- At the position `commit` every command's step is its commit. -/
theorem stepOf_commit {i : Instr} {s : State} (hpos : s.seq.pos = .commit) :
    stepOf i s = some (commitOf i s) := by
  cases i <;>
    simp [stepOf, commitOf, stepNop, stepInit, stepReadTouch, stepWait, stepSetCal, stepSetPrec,
      stepIsTouched, stepMeasure, stepGather, stepTransform, stepCsAssert, stepCsDeassert,
      stepXferWrite, stepXferRead, stepReadAxis, stepReadRaw, hpos]

section
variable {s t : State} {i : Instr}

/-- A commit that leaves the lines, the lock, MODE_EFF, INIT_DONE and CS_HELD alone keeps the
invariant, when the values it stores are legal. -/
theorem commit_inv_of_kept {u : State} {c : ErrCode} (h : s.Inv) (hb : s.status.busy = true)
    (ok : s.InFlightOk i) (hpos : s.seq.pos = .commit) (hl : locksCfg i = false)
    (hcs : csLevel s.status.csHeld i .commit = !s.status.csHeld)
    (hu : u = { s with
      status := { s.status with
        touching := u.status.touching, complete := u.status.complete, nMeas := u.status.nMeas }
      prec := u.prec, coord := u.coord, raw := u.raw, meas := u.meas, med := u.med, xfer := u.xfer
      calAct := u.calAct })
    (hprec : u.prec ≠ 0#8) (hcount : u.status.nMeas.toNat ≤ s.build.mMax)
    (hcomplete : u.status.complete = true → u.status.nMeas.toNat = s.build.mMax) :
    (u.commit c).Inv := by
  have hlocked := idle_locked ok hl
  have hcsN := (commit_held ok hpos).trans hcs
  rw [hu]
  exact commit_inv h hb rfl h.clockIdle h.driven h.mode h.held hprec hcount hcomplete
    hlocked hcsN rfl

/-- NMEAS holds the number of measurements of a gather, which is at most M_MAX (R41, R193). -/
theorem nMeas_toNat (h : s.Inv) (ok : s.InFlightOk i) (hg : gathers i = true) :
    (BitVec.ofNat 5 s.taken).toNat = s.taken ∧ s.taken ≤ s.build.mMax := by
  have hi := ok.measuring hg
  have hm := h.build.mMax_le
  have ht : s.taken = s.seq.i + 1 := rfl
  exact ⟨by simp only [BitVec.toNat_ofNat]; omega, by omega⟩

/-- The commit of a gather keeps the invariant: COMPLETE = 1 only with M_MAX measurements (R194). -/
theorem gatheredCommit_inv {u : State} (touching : Bool) (c : Coord) (h : s.Inv)
    (hb : s.status.busy = true) (ok : s.InFlightOk i) (hpos : s.seq.pos = .commit)
    (hg : gathers i = true) (hcg : commitsGather s.seq.res.gate i = true)
    (hu : u = { s.withGathered touching with coord := c }) : (u.commit .none).Inv := by
  obtain ⟨hn, hle⟩ := nMeas_toNat h ok hg
  subst hu
  refine commit_inv_of_kept h hb ok hpos ?_ ?_ rfl h.precision (hn.trans_le hle)
    fun hc => hn.trans (ok.finished hpos hcg hc)
  all_goals cases i <;> simp_all [gathers, locksCfg, csLevel]

/-- INIT's commit keeps the invariant: the engine is named and the lines driven as INIT_DONE is set
(R23, R39, R233). -/
theorem initCommit_inv {a : Byte} (h : s.Inv) (hb : s.status.busy = true)
    (ok : s.InFlightOk (.init a)) : (initCommit s).Inv := by
  have hheld : s.status.csHeld = false := by
    have hdone := ok.firstInit rfl
    by_contra hc
    simp [h.held (by simpa using hc)] at hdone
  exact commit_inv h hb rfl ⟨rfl, rfl⟩ rfl rfl (fun _ => rfl) h.precision h.count h.complete
    (by simpa [locksCfg] using ok.locked) (by simp [hheld]) rfl

/-- Every commit keeps the invariant. -/
theorem commitOf_inv (h : s.Inv) (hb : s.status.busy = true) (hi : s.seq.inFlight = some i)
    (ok : s.InFlightOk i) (hpos : s.seq.pos = .commit) : (commitOf i s).Inv := by
  cases i
  case nop | setCal | transform | measure | xferWrite | xferRead | readAxis | readRaw | isTouched
      | waitTouch | waitRelease =>
    exact commit_inv_of_kept h hb ok hpos rfl rfl rfl h.precision h.count h.complete
  case setPrec n =>
    have harg : s.seq.arg = n := Seq.inFlight_arg hi
    have hlegal : n ≠ 0#8 := by simpa [Instr.wellFormed] using ok.legalArg
    exact commit_inv_of_kept h hb ok hpos rfl rfl rfl (harg ▸ hlegal) h.count h.complete
  case init => exact initCommit_inv h hb ok
  case gather => exact gatheredCommit_inv s.seq.res.complete s.coord h hb ok hpos rfl rfl rfl
  case readTouch =>
    simp only [commitOf, readTouchCommit]
    split
    · next hgate => exact gatheredCommit_inv true _ h hb ok hpos rfl hgate rfl
    · exact commit_inv_of_kept h hb ok hpos rfl rfl rfl h.precision h.count nofun
  case csAssert =>
    have hlocked : s.cfgLocked = s.status.initDone := idle_locked ok rfl
    exact commit_inv h hb rfl h.clockIdle h.driven h.mode (fun _ => ok.initialised rfl) h.precision
      h.count h.complete hlocked (commit_held ok hpos) rfl
  case csDeassert =>
    have hlocked : s.cfgLocked = s.status.initDone := idle_locked ok rfl
    exact commit_inv h hb rfl h.clockIdle h.driven h.mode nofun h.precision
      h.count h.complete hlocked (commit_held ok hpos) rfl

end

/-! ### The steps of a command in flight -/

theorem State.penSample_steady (s : State) : Steady s s.penSample.2 :=
  s.penSample_serial.steady

theorem Steady.of_accumulate {s t : State} {v : Sample} (st : Steady s t) :
    Steady s (t.accumulate v) :=
  ⟨st.op, st.arg, st.status, st.build, st.prec, st.cfg, st.cfgLocked, st.rstN, st.oe, st.low⟩

section
variable {s t : State} {i : Instr}
variable (h : s.Inv) (hb : s.status.busy = true) (hi : s.seq.inFlight = some i)
  (ok : s.InFlightOk i)

include ok in
/-- At a PenSample no transaction is open, so chip select follows CS_HELD. -/
theorem csN_of_pen {u : Use} (hpos : s.seq.pos = .pen u) :
    s.penSample.2.pins.csN = !s.status.csHeld := by
  simpa [hpos, csLevel] using ok.chipSelect

include ok in
/-- At the end of a transaction of its own a command leaves chip select as CS_HELD = 0 has it. -/
theorem csN_of_csOff {u : Use} (hpos : s.seq.pos = .raw u .csOff) :
    (s.setCs false).pins.csN = !s.status.csHeld := by
  simp [ok.busFree (csOff_held ok hpos)]

include ok in
/-- No gather runs while the host holds the bus (R254). -/
theorem not_held_of_gathers (hg : gathers i = true) : s.status.csHeld = false :=
  ok.busFree (by cases i <;> simp_all [gathers, isTransaction])

include ok in
theorem csN_of_pen_gathers {u : Use} (hpos : s.seq.pos = .pen u) (hg : gathers i = true) :
    s.penSample.2.pins.csN = true := by
  rw [csN_of_pen ok hpos, not_held_of_gathers ok hg, Bool.not_false]

include h hb hi ok

/-- The last primitive of a command that gathers nothing leads to its commit. -/
theorem lastPrimitive_inv (st : Steady s t)
    (hpos : posOk s.cfg.useIrq s.status.modeEff i .commit = true)
    (hcs : t.pins.csN = csLevel s.status.csHeld i .commit) (hg : gathers i = false) :
    (t.goto .commit).Inv :=
  toCommit_inv h hb hi ok st hpos hcs (by simp [hg])
    fun hc => by cases i <;> simp_all [commitsGather, gathers]

/-- A step of `gather()` keeps the invariant, in GATHER and in READ_TOUCH (R193). -/
theorem gatherStep_inv (hg : gathers i = true) (hs : gatherStep s = some t) : t.Inv := by
  unfold gatherStep at hs
  split at hs <;> cases hs
  · next p hpos =>
    exact raw_inv h hb hi ok hpos fun hp => discardDone_inv h hb hi ok (hp ▸ hpos)
  · next p hpos =>
    refine raw_inv h hb hi ok hpos fun hp => ?_
    subst hp
    exact sampleDone_inv h hb hi ok hpos (measurementDone_inv h hb hi ok
      (s.setCs_serial false).steady.of_accumulate hg rfl rfl)
  · next hpos =>
    exact checkDone_inv _ h hb hi ok s.penSample_steady hg (csN_of_pen_gathers ok hpos hg) rfl
  · next p hpos =>
    exact raw_inv h hb hi ok hpos fun _ =>
      checkDone_inv _ h hb hi ok (s.setCs_serial false).steady hg rfl rfl

/-- A step of `waitFor` keeps the invariant (R157). -/
theorem stepWait_inv {target : Bool} (hw : waits i = true)
    (hs : stepWait target s = some t) : t.Inv := by
  unfold stepWait at hs
  split at hs <;> cases hs
  · next hpos =>
    exact waitDone_inv target _ h hb hi ok s.penSample_steady (by simp [hpos]) hw
      (csN_of_pen ok hpos) rfl rfl
  · next p hpos =>
    refine raw_inv h hb hi ok hpos fun hp => ?_
    subst hp
    exact waitDone_inv target _ h hb hi ok (s.setCs_serial false).steady (by simp [hpos]) hw
      (csN_of_csOff ok hpos) rfl rfl
  · next hpos =>
    have hinv := commitOf_inv h hb hi ok hpos
    cases i
    case waitTouch | waitRelease => exact hinv
    all_goals cases hw

end

section
variable {s t : State} {a : Byte} (h : s.Inv) (hb : s.status.busy = true)
include h hb

/-- A primitive of READ_AXIS that is not its last leads to the next one (R136, R138). -/
theorem axisStep_inv {p q : AxisPos} {c : Byte} (hi : s.seq.inFlight = some (.readAxis a))
    (ok : s.InFlightOk (.readAxis a)) (hpos : s.seq.pos = .axis p)
    (hq : (s.axisStep c p).1 = .step q) : ((s.axisStep c p).2.goto (.axis q)).Inv := by
  obtain ⟨ss, hcs⟩ := s.axisStep_serial c p
  have st := ss.steady.of_goto (p := .axis q)
  have hp := ok.position
  have hc := ok.chipSelect
  rw [hpos] at hp hc
  have hq' := State.axisStep_pos hq hp
  exact st.inv h hb hi (ok.move st hq' (hcs.trans hc) nofun nofun nofun nofun)

theorem stepReadAxis_inv (hi : s.seq.inFlight = some (.readAxis a))
    (ok : s.InFlightOk (.readAxis a)) (hs : stepReadAxis s = some t) : t.Inv := by
  unfold stepReadAxis at hs
  split at hs
  · next p hpos =>
    split at hs <;> cases hs
    · next q u hstep =>
      have hinv := axisStep_inv h hb hi ok (c := s.seq.arg) (q := q) hpos (by rw [hstep])
      rwa [hstep] at hinv
    · next v u hstep =>
      obtain ⟨ss, hcs⟩ := s.axisStep_serial s.seq.arg p
      have hc := ok.chipSelect
      rw [hstep] at ss hcs
      rw [hpos] at hc
      exact lastPrimitive_inv h hb hi ok ss.steady.of_keep rfl (hcs.trans hc) rfl
  · next hpos =>
    cases hs
    exact commitOf_inv h hb hi ok hpos
  all_goals cases hs

theorem stepReadRaw_inv (hi : s.seq.inFlight = some (.readRaw a))
    (ok : s.InFlightOk (.readRaw a)) (hs : stepReadRaw s = some t) : t.Inv := by
  unfold stepReadRaw at hs
  split at hs <;> cases hs
  · next p hpos =>
    exact raw_inv h hb hi ok hpos fun hp => rawDone_inv id h hb hi ok (hp ▸ hpos) rfl
  · next hpos => exact commitOf_inv h hb hi ok hpos

theorem stepIsTouched_inv (hi : s.seq.inFlight = some (.isTouched a))
    (ok : s.InFlightOk (.isTouched a)) (hs : stepIsTouched s = some t) : t.Inv := by
  unfold stepIsTouched at hs
  split at hs <;> cases hs
  · next hpos =>
    exact checked_inv _ h hb hi ok s.penSample_steady rfl (csN_of_pen ok hpos) nofun nofun rfl
  · next p hpos =>
    exact raw_inv h hb hi ok hpos fun hp => rawDone_inv _ h hb hi ok (hp ▸ hpos) rfl
  · next hpos => exact commitOf_inv h hb hi ok hpos

theorem stepMeasure_inv (hi : s.seq.inFlight = some (.measure a))
    (ok : s.InFlightOk (.measure a)) (hs : stepMeasure s = some t) : t.Inv := by
  unfold stepMeasure at hs
  split at hs <;> cases hs
  · next p hpos =>
    exact raw_inv h hb hi ok hpos fun hp => discardDone_inv h hb hi ok (hp ▸ hpos)
  · next p hpos =>
    refine raw_inv h hb hi ok hpos fun hp => ?_
    subst hp
    exact sampleDone_inv h hb hi ok hpos (checked_inv _ h hb hi ok
      (s.setCs_serial false).steady.of_accumulate rfl (csN_of_csOff ok hpos) nofun nofun rfl)
  · next hpos => exact commitOf_inv h hb hi ok hpos

theorem stepGather_inv (hi : s.seq.inFlight = some (.gather a))
    (ok : s.InFlightOk (.gather a)) (hs : stepGather s = some t) : t.Inv := by
  unfold stepGather at hs
  split at hs
  · next hpos =>
    cases hs
    exact commitOf_inv h hb hi ok hpos
  all_goals exact gatherStep_inv h hb hi ok rfl hs

theorem stepReadTouch_inv (hi : s.seq.inFlight = some (.readTouch a))
    (ok : s.InFlightOk (.readTouch a)) (hs : stepReadTouch s = some t) : t.Inv := by
  unfold stepReadTouch at hs
  split at hs
  · next hpos =>
    cases hs
    exact gateDone_inv _ h hb hi ok s.penSample_steady (csN_of_pen_gathers ok hpos rfl) rfl
  · next p hpos =>
    cases hs
    exact raw_inv h hb hi ok hpos fun _ =>
      gateDone_inv _ h hb hi ok (s.setCs_serial false).steady rfl rfl
  · next hpos =>
    cases hs
    exact commitOf_inv h hb hi ok hpos
  iterate 8 (· exact gatherStep_inv h hb hi ok rfl hs)
  all_goals cases hs

end

/-- Every step of the command in flight keeps the invariant. -/
theorem stepOf_inv {s t : State} {i : Instr} (h : s.Inv) (hb : s.status.busy = true)
    (hi : s.seq.inFlight = some i) (ok : s.InFlightOk i) (hs : stepOf i s = some t) : t.Inv := by
  cases i
  case readTouch => exact stepReadTouch_inv h hb hi ok hs
  case waitTouch | waitRelease => exact stepWait_inv h hb hi ok rfl hs
  case isTouched => exact stepIsTouched_inv h hb hi ok hs
  case measure => exact stepMeasure_inv h hb hi ok hs
  case gather => exact stepGather_inv h hb hi ok hs
  case readAxis => exact stepReadAxis_inv h hb hi ok hs
  case readRaw => exact stepReadRaw_inv h hb hi ok hs
  case nop | init | setCal | setPrec | transform =>
    simp only [stepOf, stepNop, stepInit, stepSetCal, stepSetPrec, stepTransform] at hs
    split at hs <;> cases hs
    next hpos => exact commitOf_inv h hb hi ok hpos
  case csAssert | csDeassert =>
    simp only [stepOf, stepCsAssert, stepCsDeassert] at hs
    split at hs <;> cases hs
    · exact lastPrimitive_inv h hb hi ok (s.setCs_serial _).steady rfl rfl rfl
    · next hpos => exact commitOf_inv h hb hi ok hpos
  case xferWrite =>
    simp only [stepOf, stepXferWrite] at hs
    split at hs <;> cases hs
    · next hpos =>
      have hcs : s.pins.csN = _ := hpos ▸ ok.chipSelect
      exact lastPrimitive_inv h hb hi ok (s.busXfer_serial _).steady rfl hcs rfl
    · next hpos => exact commitOf_inv h hb hi ok hpos
  case xferRead =>
    simp only [stepOf, stepXferRead] at hs
    split at hs <;> cases hs
    · next hpos =>
      have hcs : s.pins.csN = _ := hpos ▸ ok.chipSelect
      exact lastPrimitive_inv h hb hi ok (s.busXfer_serial _).steady.of_keep rfl hcs rfl
    · next hpos => exact commitOf_inv h hb hi ok hpos

/-! ### Acceptance -/

theorem posOk_startPos (i : Instr) (s : State) :
    posOk s.cfg.useIrq s.status.modeEff i (startPos i s) = true := by
  cases i
  case csAssert | csDeassert => simp only [startPos]; split <;> rfl
  case readTouch | waitTouch | waitRelease | isTouched =>
    cases hu : s.cfg.useIrq <;> simp [startPos, State.touchedPos, hu] <;> rfl
  all_goals rfl

/-- A command starts where chip select follows CS_HELD, as it does at IDLE (R37): a transaction
starts with the bus free (R254). -/
theorem csLevel_startPos {i : Instr} {s : State}
    (hfree : isTransaction s.cfg.useIrq i = true → s.status.csHeld = false) :
    csLevel s.status.csHeld i (startPos i s) = !s.status.csHeld := by
  cases i
  case csAssert | csDeassert => cases hh : s.status.csHeld <;> simp [startPos, hh] <;> rfl
  case readTouch | waitTouch | waitRelease | isTouched =>
    cases hu : s.cfg.useIrq <;>
      simp_all [startPos, State.touchedPos, csLevel, isTransaction]
  case measure | gather | readRaw => rw [hfree rfl]; rfl
  all_goals rfl

theorem State.touchedPos_ne_commit (u : Use) (s : State) : s.touchedPos u ≠ .commit := by
  unfold State.touchedPos
  split <;> nofun

theorem State.touchedPos_ne_sample {u : Use} (hu : u ≠ .sample) (s : State) (p : RawPos) :
    s.touchedPos u ≠ .raw .sample p := by
  unfold State.touchedPos
  split
  · nofun
  · simp [hu]

/-- No command starts inside a measurement. -/
theorem startPos_ne_sample (i : Instr) (s : State) (p : RawPos) :
    startPos i s ≠ .raw .sample p := by
  cases i
  case csAssert | csDeassert => simp only [startPos]; split <;> nofun
  case readTouch => exact State.touchedPos_ne_sample (u := .gate) nofun s p
  case waitTouch | waitRelease | isTouched =>
    exact State.touchedPos_ne_sample (u := .check) nofun s p
  all_goals nofun

theorem startPos_ne_commit {i : Instr} (s : State) (hg : gathers i = true) :
    startPos i s ≠ .commit := by
  cases i
  case readTouch => exact s.touchedPos_ne_commit .gate
  case gather => nofun
  all_goals cases hg

/-- A CMD write while idle keeps the invariant, accepted or refused (R84, R252). -/
theorem State.submit_inv {s : State} {i : Instr} (h : s.Inv) (hb : s.status.busy = false)
    (hr : s.rstN = true) : (s.submit i (startPos i s)).Inv := by
  unfold State.submit
  split
  · next hc =>
    obtain ⟨-, -, hfree, -⟩ := check_none hc
    exact accept_inv h hb hr hc (posOk_startPos i s) (csLevel_startPos hfree)
      (startPos_ne_sample i s) (startPos_ne_commit s) h.build.mMax_pos
  · exact raise_inv h hb hr

/-- Out of reset every meaning keeps the invariant: an acceptance, a refusal, a drop and a step. -/
theorem exec_inv {i : Instr} {s t : State} (h : s.Inv) (hr : s.rstN = true)
    (hs : exec i s = .next t) : t.Inv := by
  rw [exec_eq_command] at hs
  obtain ⟨hb, he⟩ | ⟨hb, hi, ⟨u, hu, he⟩ | ⟨-, he⟩⟩ | ⟨hb, -, he⟩ :=
    s.command_cases i (startPos i s) (stepOf i)
  all_goals rw [he] at hs; cases hs
  · exact State.submit_inv h hb hr
  · obtain ⟨-, j, hj, ok⟩ := h.inFlight hb
    obtain rfl : j = i := Option.some.inj (hj.symm.trans hi)
    exact stepOf_inv h hb hi ok hu
  · exact dropCmd_inv h hb

/-! ### The host -/

/-- A host action that is no meaning keeps the invariant. -/
theorem State.hostMove_done_inv {s u : State} {a : HostAction} {rest : List HostAction} (h : s.Inv)
    (hm : s.hostMove a rest = .done u) : u.Inv := by
  have hs := setScript_inv rest h
  cases a with
  | write addr w =>
    simp only [State.hostMove] at hm
    obtain ⟨-, he⟩ | ⟨hr, -, he⟩ | ⟨hr, -, ⟨hb, he⟩ | ⟨-, i, -, he⟩ | ⟨hb, err, -, he⟩⟩ :=
      (s.setScript rest).hostWrite_cases addr w
    all_goals rw [he] at hm; cases hm
    · exact hs
    · exact write_inv _ w hs hr
    · exact dropCmd_inv hs hb
    · exact raise_inv hs hb hr
  | read addr => cases hm; exact hostRead_inv addr hs
  | waitIdle => cases hm; exact hostRead_inv _ (setScript_inv _ h)
  | reset => cases hm; exact resetOf_inv s.build h.build _ _ _
  | setRst level => cases hm; exact driveReset_inv level hs

/-- The only host action that runs a meaning is a CMD write out of reset and while idle (R84). -/
theorem State.hostMove_run {s u : State} {a : HostAction} {rest : List HostAction} {i : Instr}
    (hm : s.hostMove a rest = .run i u) :
    u = s.setScript rest ∧ s.rstN = true ∧ s.status.busy = false := by
  cases a with
  | write addr w =>
    simp only [State.hostMove] at hm
    obtain ⟨-, he⟩ | ⟨-, -, he⟩ | ⟨hr, -, ⟨-, he⟩ | ⟨hb, j, -, he⟩ | ⟨-, err, -, he⟩⟩ :=
      (s.setScript rest).hostWrite_cases addr w
    all_goals rw [he] at hm; cases hm
    exact ⟨rfl, hr, hb⟩
  | read | waitIdle | reset | setRst => cases hm

/-! ### One step of the machine -/

/-- What a step can do (R6): nothing, one step of the command in flight, or one action of the host,
which is over at once or runs the command it writes to CMD. -/
theorem step_cases {s t : State} (hs : step s = .next t) :
    t = s ∨
    (∃ e i, s.sequencerReady = true ∧ s.seq.inFlight = some i ∧
      exec i { s with env := e } = .next t) ∨
    (∃ e a rest, s.env.script = a :: rest ∧ s.nextIsSequencer = false ∧
      ({ s with env := e }.hostMove a rest = .done t ∨
        ∃ i, s.rstN = true ∧ s.status.busy = false ∧
          exec i ({ s with env := e }.setScript rest) = .next t)) := by
  unfold step at hs
  obtain ⟨hn, e, -, hm⟩ | ⟨hn, a, rest, e, hscript, -, hm⟩ | ⟨-, -, hm⟩ := s.nextMove_cases
  · have hready : s.sequencerReady = true := by
      simp only [State.nextIsSequencer, Bool.and_eq_true] at hn
      exact hn.1
    rw [hm, State.sequencerMove] at hs
    cases hi : s.seq.inFlight with
    | none => simp [hi] at hs
    | some i => exact .inr (.inl ⟨e, i, hready, rfl, by simpa [hi] using hs⟩)
  · refine .inr (.inr ⟨e, a, rest, hscript, hn, ?_⟩)
    rw [hm] at hs
    cases hh : { s with env := e }.hostMove a rest with
    | done u =>
      rw [hh] at hs
      cases hs
      exact .inl rfl
    | run i u =>
      rw [hh] at hs
      obtain ⟨rfl, hr, hb⟩ := State.hostMove_run hh
      exact .inr ⟨i, hr, hb, hs⟩
    | stuck f =>
      rw [hh] at hs
      cases hs
  · rw [hm] at hs
    cases hs
    exact .inl rfl

/-- Settles O54: the sequencer's step and a CMD write run a meaning out of reset, every other host
action keeps the invariant by itself, and inputs taken do not touch it. -/
theorem stepKeepsTheInvariant : Obligations.StepKeepsTheInvariant := by
  unfold Obligations.StepKeepsTheInvariant
  intro s t h hs
  obtain rfl | ⟨e, i, hready, -, hrun⟩ | ⟨e, a, rest, -, -, hdone | ⟨i, hr, -, hrun⟩⟩ :=
    step_cases hs
  · exact h
  · have hr : s.rstN = true := by
      simp only [State.sequencerReady, Bool.and_eq_true] at hready
      exact hready.2
    exact exec_inv (env_inv e h) hr hrun
  · exact State.hostMove_done_inv (env_inv e h) hdone
  · exact exec_inv (setScript_inv rest (env_inv e h)) hr hrun

end Sys2Proof.Machine
end

section
/-! PROOFS. Statements of 10_state.md about the registers each command writes (R57) and the
configuration after INIT: what a meaning leaves alone before its commit, and in it. -/

namespace Sys2Proof.Machine

/-! ### The steps before a commit -/

/-- `t` is `s` but for what a step before the commit works on (R57): the serial side, the
sequencer's position, indices and partial results, the sums and the measurements, of which MBUF is a
register and only a command that gathers stores one there. -/
structure BodyStep (gathers : Bool) (s t : State) : Prop where
  frame : t = { s with
    pins := { t.pins with oe := s.pins.oe }
    seq := { t.seq with
      op := s.seq.op, arg := s.seq.arg, limit := s.seq.limit, tin := s.seq.tin, cfg := s.seq.cfg }
    accX := t.accX, accY := t.accY, mvals := t.mvals, mbuf := t.mbuf
    engines := t.engines, sync := t.sync, hist := t.hist
    env := { t.env with script := s.env.script } }
  mbuf : gathers = false → t.mbuf = s.mbuf

section
variable {g : Bool} {s t u : State}

theorem BodyStep.trans (h : BodyStep g s t) (k : BodyStep g t u) : BodyStep g s u where
  frame := by
    have hk := k.frame
    rw [h.frame] at hk
    exact hk
  mbuf := fun hg => (k.mbuf hg).trans (h.mbuf hg)

theorem SerialStep.body (h : SerialStep s t) : BodyStep g s t where
  frame := by
    rw [← h.oe, ← h.script, h.frame]
  mbuf := fun _ => by rw [h.frame]

theorem State.goto_body (p : Pos) (s : State) : BodyStep g s (s.goto p) := ⟨rfl, fun _ => rfl⟩

theorem State.keep_body (f : Results → Results) (s : State) : BodyStep g s (s.keep f) :=
  ⟨rfl, fun _ => rfl⟩

/-- The computation around the last primitive of a transaction or a check writes no register but
MBUF. -/
def BodyDone {α : Type} (g : Bool) (done : α → State → State) : Prop :=
  ∀ v t, BodyStep g t (done v t)

theorem State.rawStep_body {done : Sample → State → State} (hd : BodyDone g done) (u : Use)
    (p : RawPos) (s : State) : BodyStep g s (s.rawStep u p done) := by
  obtain ⟨-, he⟩ | ⟨-, he⟩ | ⟨-, -, t, q, he, ss, -⟩ := s.rawStep_cases u p done
  all_goals rw [he]
  · exact (s.setCs_serial true).body.trans (State.goto_body _ _)
  · exact (s.setCs_serial false).body.trans (hd _ _)
  · exact ss.body.trans (t.goto_body _)

theorem State.sampleStep_body {done : Bool → State → State} (hd : BodyDone g done) (u : Use)
    (p : RawPos) (s : State) : BodyStep g s (s.sampleStep u p done) :=
  s.rawStep_body (fun v t => hd v.valid t) u p

theorem State.penStep_body {done : Bool → State → State} (hd : BodyDone g done) (s : State) :
    BodyStep g s (s.penStep done) :=
  s.penSample_serial.body.trans (hd _ _)

theorem discardDone_body : BodyDone g fun (_ : Sample) t => discardDone t :=
  fun _ _ => ⟨rfl, fun _ => rfl⟩

theorem sampleDone_body {done : Sample → State → State} (hd : BodyDone g done) :
    BodyDone g (sampleDone done) := by
  intro v t
  unfold sampleDone
  split
  · exact ⟨rfl, fun _ => rfl⟩
  · exact BodyStep.trans (t := t.accumulate v) ⟨rfl, fun _ => rfl⟩ (hd _ _)

theorem measurementDone_body : BodyDone true measurementDone := fun _ _ => ⟨rfl, nofun⟩

theorem checkDone_body : BodyDone g checkDone := by
  intro b t
  unfold checkDone
  split_ifs <;> exact ⟨rfl, fun _ => rfl⟩

theorem isTouchedDone_body : BodyDone g isTouchedDone := fun _ _ => ⟨rfl, fun _ => rfl⟩

theorem gateDone_body : BodyDone g gateDone := fun _ _ => ⟨rfl, fun _ => rfl⟩

theorem waitDone_body (target : Bool) : BodyDone g (waitDone target) := by
  intro b t
  unfold waitDone
  dsimp only
  split_ifs <;> exact ⟨rfl, fun _ => rfl⟩

theorem gatherStep_body (hs : gatherStep s = some t) : BodyStep true s t := by
  unfold gatherStep at hs
  split at hs <;> cases hs
  · exact s.rawStep_body discardDone_body _ _
  · exact s.rawStep_body (sampleDone_body measurementDone_body) _ _
  · exact s.penStep_body checkDone_body
  · exact s.sampleStep_body checkDone_body _ _

theorem stepWait_body {target : Bool} (hne : s.seq.pos ≠ .commit)
    (hs : stepWait target s = some t) : BodyStep g s t := by
  unfold stepWait at hs
  split at hs <;> cases hs
  · exact s.penStep_body (waitDone_body target)
  · exact s.sampleStep_body (waitDone_body target) _ _
  · next hpos => exact absurd hpos hne

theorem stepReadTouch_body (hne : s.seq.pos ≠ .commit) (hs : stepReadTouch s = some t) :
    BodyStep true s t := by
  unfold stepReadTouch at hs
  split at hs
  · cases hs; exact s.penStep_body gateDone_body
  · cases hs; exact s.sampleStep_body gateDone_body _ _
  · next hpos => exact absurd hpos hne
  iterate 8 (· exact gatherStep_body hs)
  all_goals cases hs

theorem stepReadAxis_body (hne : s.seq.pos ≠ .commit) (hs : stepReadAxis s = some t) :
    BodyStep g s t := by
  unfold stepReadAxis at hs
  split at hs
  · next p _ =>
    obtain ⟨ss, -⟩ := s.axisStep_serial s.seq.arg p
    split at hs <;> cases hs
    · next q u hstep =>
      rw [hstep] at ss
      exact ss.body.trans (u.goto_body _)
    · next v u hstep =>
      rw [hstep] at ss
      exact ss.body.trans ((u.keep_body _).trans (State.goto_body _ _))
  · next hpos => exact absurd hpos hne
  all_goals cases hs

/-- Before its commit every command's step is a `BodyStep`. -/
theorem stepOf_body {i : Instr} (hne : s.seq.pos ≠ .commit) (hs : stepOf i s = some t) :
    BodyStep (gathers i) s t := by
  cases i
  case readTouch => exact stepReadTouch_body hne hs
  case waitTouch | waitRelease => exact stepWait_body hne hs
  case readAxis => exact stepReadAxis_body hne hs
  case gather =>
    simp only [stepOf, stepGather] at hs
    split at hs
    · next hpos => exact absurd hpos hne
    all_goals exact gatherStep_body hs
  case isTouched =>
    simp only [stepOf, stepIsTouched] at hs
    split at hs <;> cases hs
    · exact s.penStep_body isTouchedDone_body
    · exact s.sampleStep_body isTouchedDone_body _ _
    · next hpos => exact absurd hpos hne
  case measure =>
    simp only [stepOf, stepMeasure] at hs
    split at hs <;> cases hs
    · exact s.rawStep_body discardDone_body _ _
    · exact s.rawStep_body
        (sampleDone_body fun _ t => (t.keep_body _).trans (State.goto_body _ _)) _ _
    · next hpos => exact absurd hpos hne
  case readRaw =>
    simp only [stepOf, stepReadRaw] at hs
    split at hs <;> cases hs
    · exact s.rawStep_body (fun _ t => t.goto_body _) _ _
    · next hpos => exact absurd hpos hne
  case csAssert | csDeassert =>
    simp only [stepOf, stepCsAssert, stepCsDeassert] at hs
    split at hs <;> cases hs
    · exact (s.setCs_serial _).body.trans (State.goto_body _ _)
    · next hpos => exact absurd hpos hne
  case xferWrite =>
    simp only [stepOf, stepXferWrite] at hs
    split at hs <;> cases hs
    · exact (s.busXfer_serial _).body.trans (State.goto_body _ _)
    · next hpos => exact absurd hpos hne
  case xferRead =>
    simp only [stepOf, stepXferRead] at hs
    split at hs <;> cases hs
    · exact (s.busXfer_serial _).body.trans ((State.keep_body _ _).trans (State.goto_body _ _))
    · next hpos => exact absurd hpos hne
  case nop | init | setCal | setPrec | transform =>
    simp only [stepOf, stepNop, stepInit, stepSetCal, stepSetPrec, stepTransform] at hs
    split at hs <;> cases hs
    next hpos => exact absurd hpos hne

end

/-! ### A meaning that is no commit -/

/-- `t` is `s` but for what every meaning of the command `i` other than its commit can change: BUSY,
ERR, CMD_OVR, the serial lines but `ts_oe`, and what is no register. An acceptance of INIT locks CFG,
and a command that gathers writes MBUF before its commit. -/
structure KeepsRegisters (i : Instr) (s t : State) : Prop where
  frame : t = { s with
    cfgLocked := t.cfgLocked
    status := { s.status with
      busy := t.status.busy, err := t.status.err, cmdOvr := t.status.cmdOvr }
    mbuf := t.mbuf
    pins := { t.pins with oe := s.pins.oe }
    seq := t.seq, accX := t.accX, accY := t.accY, mvals := t.mvals
    engines := t.engines, sync := t.sync, hist := t.hist
    env := { t.env with script := s.env.script } }
  locked : locksCfg i = false → t.cfgLocked = s.cfgLocked
  mbuf : gathers i = false → t.mbuf = s.mbuf

theorem BodyStep.keepsRegisters {i : Instr} {s t : State} (h : BodyStep (gathers i) s t) :
    KeepsRegisters i s t where
  frame := by rw [h.frame]
  locked := fun _ => by rw [h.frame]
  mbuf := h.mbuf

theorem State.submit_keepsRegisters (i : Instr) (p : Pos) (s : State) :
    KeepsRegisters i s (s.submit i p) := by
  unfold State.submit
  split
  · exact ⟨rfl, fun hl => by simp [hl], fun _ => rfl⟩
  · exact ⟨rfl, fun _ => rfl, fun _ => rfl⟩

/-- What a meaning can do to the registers: keep them, or commit. -/
theorem exec_cases {i : Instr} {s t : State} (h : exec i s = .next t) :
    KeepsRegisters i s t ∨
      (s.status.busy = true ∧ s.seq.inFlight = some i ∧ t = commitOf i s) := by
  rw [exec_eq_command] at h
  obtain ⟨-, he⟩ | ⟨hb, hi, ⟨u, hu, he⟩ | ⟨-, he⟩⟩ | ⟨-, -, he⟩ :=
    s.command_cases i (startPos i s) (stepOf i)
  all_goals rw [he] at h; cases h
  · exact .inl (s.submit_keepsRegisters i _)
  · by_cases hpos : s.seq.pos = .commit
    · exact .inr ⟨hb, hi, Option.some.inj (hu.symm.trans (stepOf_commit hpos))⟩
    · exact .inl (stepOf_body hpos hu).keepsRegisters
  · exact .inl ⟨rfl, fun _ => rfl, fun _ => rfl⟩

/-- Only INIT locks CFG (R232). -/
theorem locksCfg_eq (i : Instr) : locksCfg i = (i.opcode == 0x01#8) := by
  cases i <;> rfl

/-- READ_TOUCH and GATHER are the commands that run `gather()` (R195, R235). -/
theorem gathers_eq (i : Instr) : gathers i = (i.opcode == 0x02#8 || i.opcode == 0x0A#8) := by
  cases i <;> rfl

/-- Settles O27: a meaning that keeps the registers keeps those of R57's table, and each command's
commit writes its own row of it. -/
theorem commandsWriteOnlyTheirRegisters : Obligations.CommandsWriteOnlyTheirRegisters := by
  unfold Obligations.CommandsWriteOnlyTheirRegisters
  intro i s t h
  obtain hk | ⟨-, -, rfl⟩ := exec_cases h
  · have hlocked (hop : i.opcode ≠ 0x01#8) := hk.locked (by simp [locksCfg_eq, hop])
    have hmbuf (hop : i.opcode ∉ [0x02#8, 0x0A#8]) := hk.mbuf (by simp_all [gathers_eq])
    rw [hk.frame]
    exact ⟨fun hop => ⟨hlocked hop, rfl, rfl, rfl⟩, fun _ => rfl,
      fun hop => ⟨rfl, rfl, rfl, hmbuf hop⟩, fun _ => rfl, fun _ => rfl, fun _ => rfl,
      fun _ _ => rfl, fun _ => rfl, fun _ => rfl, fun _ => rfl, fun _ => rfl,
      rfl, rfl, rfl, rfl, rfl, rfl, rfl, rfl, rfl⟩
  · cases i
    case readTouch =>
      cases hg : s.seq.res.gate <;>
        simp [commitOf, readTouchCommit, State.withGathered, hg, Instr.opcode]
    case isTouched =>
      cases hu : s.cfg.useIrq <;> simp [commitOf, isTouchedCommit, hu, Instr.opcode]
    all_goals simp [commitOf, initCommit, waitCommit, State.withGathered, Instr.opcode]

/-! ### The configuration after INIT -/

/-- CFG is locked from INIT's commit on (R30, R232). -/
theorem State.Inv.locked_of_initDone {s : State} (h : s.Inv) (hd : s.status.initDone = true) :
    s.cfgLocked = true := by
  cases hb : s.status.busy with
  | false =>
    obtain ⟨-, -, hlocked, -⟩ := h.idle hb
    exact hlocked.trans hd
  | true =>
    obtain ⟨-, i, -, ok⟩ := h.inFlight hb
    simp [ok.locked, hd]

/-- No INIT is in flight once one has committed (R232, R234). -/
theorem State.Inv.not_init_inFlight {s : State} {i : Instr} (h : s.Inv)
    (hd : s.status.initDone = true) (hb : s.status.busy = true)
    (hi : s.seq.inFlight = some i) : i.opcode ≠ 0x01#8 := by
  intro hop
  obtain ⟨-, j, hj, ok⟩ := h.inFlight hb
  obtain rfl : j = i := Option.some.inj (hj.symm.trans hi)
  simpa [hd, locksCfg_eq, hop] using ok.firstInit

/-- CFG, and the engine in use once INIT is done (R30, R39, R100). -/
def State.config (s : State) : Cfg × Option TransportMode × Bool :=
  (s.cfg, s.status.modeEff, s.status.initDone)

theorem exec_config {i : Instr} {s t : State} (h : s.Inv) (hd : s.status.initDone = true)
    (hs : exec i s = .next t) : t.config = s.config := by
  obtain hk | ⟨hb, hi, -⟩ := exec_cases hs
  · rw [hk.frame]
    rfl
  · obtain ⟨hinit, -, -, -, -, -, -, -, -, -, -, hcfg, -⟩ :=
      commandsWriteOnlyTheirRegisters i s t hs
    obtain ⟨-, hdone, hmode, -⟩ := hinit (h.not_init_inFlight hd hb hi)
    rw [State.config, hcfg, hmode, hdone, State.config]

/-- A write to a locked CFG is ignored, and no other register holds the configuration (R30). -/
theorem State.writeRegister_config {s : State} (hl : s.cfgLocked = true) (a : Nat) (w : Word) :
    (s.writeRegister a w).config = s.config := by
  unfold State.writeRegister
  split
  · simp [hl]
  · split <;> rfl
  all_goals rfl

theorem State.hostRead_config (addr : Byte) (s : State) : (s.hostRead addr).config = s.config := by
  unfold State.hostRead
  split <;> rfl

/-- A host action that is neither a meaning nor a reset leaves a locked configuration alone. -/
theorem State.hostMove_config {s u : State} {a : HostAction} {rest : List HostAction}
    (hl : s.cfgLocked = true) (ha : a ≠ .reset ∧ a ≠ .setRst false)
    (hm : s.hostMove a rest = .done u) : u.config = s.config := by
  cases a with
  | write addr w =>
    simp only [State.hostMove] at hm
    obtain ⟨-, he⟩ | ⟨-, -, he⟩ | ⟨-, -, ⟨-, he⟩ | ⟨-, i, -, he⟩ | ⟨-, err, -, he⟩⟩ :=
      (s.setScript rest).hostWrite_cases addr w
    all_goals rw [he] at hm; cases hm
    · rfl
    · exact State.writeRegister_config (s := s.setScript rest) hl _ w
    all_goals rfl
  | read addr => cases hm; exact (s.setScript rest).hostRead_config addr
  | waitIdle => cases hm; exact State.hostRead_config _ (s.setScript _)
  | reset => exact absurd rfl ha.1
  | setRst level =>
    cases level with
    | false => exact absurd rfl ha.2
    | true => cases hm; rfl

/-- At the host's step a reset action in the script is the step (R280). -/
theorem not_reset_of_nextIsReset {s : State} {a : HostAction} {rest : List HostAction}
    (hscript : s.env.script = a :: rest) (hturn : s.nextIsSequencer = false)
    (hreset : s.nextIsReset = false) : a ≠ .reset ∧ a ≠ .setRst false := by
  constructor <;> rintro rfl <;> simp [State.nextIsReset, hscript, hturn] at hreset

/-- Settles O57: a step runs a meaning or is a host action that leaves the configuration alone; the
lock and `ts_oe` then follow from the invariant of the next state. -/
theorem configurationIsFixedAfterInit : Obligations.ConfigurationIsFixedAfterInit := by
  unfold Obligations.ConfigurationIsFixedAfterInit
  intro s t h hd hreset hs
  have ht : t.Inv := stepKeepsTheInvariant s t h hs
  have hk : t.config = s.config := by
    obtain rfl | ⟨e, i, -, -, hrun⟩ | ⟨e, a, rest, hscript, hturn, hdone | ⟨i, -, -, hrun⟩⟩ :=
      step_cases hs
    · rfl
    · exact (exec_config (env_inv e h) hd hrun :)
    · exact State.hostMove_config (s := { s with env := e }) (h.locked_of_initDone hd)
        (not_reset_of_nextIsReset hscript hturn hreset) hdone
    · exact (exec_config (setScript_inv rest (env_inv e h)) hd hrun :)
  obtain ⟨hcfg, hmode, hdone⟩ : t.cfg = s.cfg ∧ t.status.modeEff = s.status.modeEff ∧
      t.status.initDone = true := by simpa [State.config, hd] using hk
  exact ⟨hcfg, hmode, hdone, ht.locked_of_initDone hdone, ht.driven.trans hdone⟩

end Sys2Proof.Machine
end

section
/-! PROOFS. Statements of 10_state.md about the host register space: the fields of the registers, what
each word reads as, and what it reads right after reset. -/

namespace Sys2Proof.Machine

/-! ### Fields (R28, R32, R44, R45, R48, R53, R54)

A field of a concatenation is a field of the part it lies in: the parts below it are dropped by
`extractLsb'_append_eq_of_le` and those above it by `extractLsb'_append_eq_of_add_le`. -/

section
open BitVec

theorem Status.word_flags (v : Status) :
    v.word.getLsbD 0 = v.busy ∧ v.word.getLsbD 1 = v.initDone ∧ v.word.getLsbD 2 = v.touching ∧
      v.word.getLsbD 3 = v.complete ∧ v.word.getLsbD 4 = v.csHeld ∧
      v.word.getLsbD 5 = v.cmdOvr := by
  simp only [Status.word, getLsbD_append]
  simp

theorem Status.word_fields (v : Status) :
    v.word.extractLsb' 6 2 = modeEffBits v.modeEff ∧ v.word.extractLsb' 8 4 = v.err.code ∧
      v.word.extractLsb' 12 4 = 0#4 ∧ v.word.extractLsb' 16 5 = v.nMeas ∧
      v.word.extractLsb' 21 11 = 0#11 := by
  simp (disch := decide) only [Status.word, extractLsb'_append_eq_of_le,
    extractLsb'_append_eq_of_add_le]
  simp

/-- The reserved code of MODE is never stored (R29). -/
theorem CfgMode.bits_ne_reserved (m : CfgMode) : m.bits ≠ 0b11#2 := by
  cases m <;> decide

theorem Cfg.word_fields (c : Cfg) :
    c.word.extractLsb' 0 2 = c.mode.bits ∧ c.mode.bits ≠ 0b11#2 ∧ c.word.getLsbD 2 = c.useIrq ∧
      c.word.extractLsb' 3 29 = 0#29 := by
  simp (disch := decide) only [Cfg.word, getLsbD_append, extractLsb'_append_eq_of_le,
    extractLsb'_append_eq_of_add_le]
  simp [c.mode.bits_ne_reserved]

theorem Coord.word_fields (c : Coord) :
    c.word.extractLsb' 0 16 = c.xd ∧ c.word.extractLsb' 16 16 = c.yd := by
  simp (disch := decide) only [Coord.word, extractLsb'_append_eq_of_le,
    extractLsb'_append_eq_of_add_le]
  simp

theorem Sample.word_fields (v : Sample) :
    v.word.extractLsb' 0 12 = v.x ∧ v.word.extractLsb' 12 4 = 0#4 ∧
      v.word.extractLsb' 16 12 = v.y ∧ v.word.extractLsb' 28 4 = 0#4 ∧
      Sample.ofWord v.word = v := by
  simp (disch := decide) only [Sample.ofWord, Sample.word, extractLsb'_append_eq_of_le,
    extractLsb'_append_eq_of_add_le]
  simp

theorem XferReg.word_fields (v : XferReg) :
    v.word.extractLsb' 0 8 = v.rxByte ∧ v.word.extractLsb' 8 8 = 0#8 ∧
      v.word.extractLsb' 16 12 = v.axis ∧ v.word.extractLsb' 28 4 = 0#4 := by
  simp (disch := decide) only [XferReg.word, extractLsb'_append_eq_of_le,
    extractLsb'_append_eq_of_add_le]
  simp

theorem Pins.word_fields (p : Pins) (miso pen : Bool) :
    (p.word miso pen).getLsbD 0 = p.csN ∧ (p.word miso pen).getLsbD 1 = p.sclk ∧
      (p.word miso pen).getLsbD 2 = p.mosi ∧ (p.word miso pen).getLsbD 3 = miso ∧
      (p.word miso pen).getLsbD 4 = pen ∧ (p.word miso pen).getLsbD 5 = p.oe ∧
      (p.word miso pen).extractLsb' 6 26 = 0#26 := by
  simp (disch := decide) only [Pins.word, getLsbD_append, extractLsb'_append_eq_of_le]
  simp

theorem paramsWord_fields (b : Params) (hb : b.mMax ≤ 16) :
    ((paramsWord b).extractLsb' 0 5).toNat = b.mMax ∧
      (paramsWord b).getLsbD 5 = decide (b.autoMode = .sw) ∧
      (paramsWord b).getLsbD 6 = decide (b.medianRound = .halfUp) ∧
      (paramsWord b).getLsbD 7 = decide (b.clampMode = .wrap16) ∧
      (paramsWord b).extractLsb' 8 8 = b.cmdX ∧ (paramsWord b).extractLsb' 16 8 = b.cmdY ∧
      (paramsWord b).extractLsb' 24 8 = 0#8 := by
  have hm : b.mMax % 32 = b.mMax := Nat.mod_eq_of_lt (by omega)
  simp (disch := decide) only [paramsWord, getLsbD_append, extractLsb'_append_eq_of_le,
    extractLsb'_append_eq_of_add_le]
  simp [hm, beq_eq_decide]

end

/-- Settles O46: each register's fields, and the codes by evaluation. -/
theorem registerLayouts : Obligations.RegisterLayouts := by
  unfold Obligations.RegisterLayouts
  refine ⟨fun v => ?_, ⟨rfl, rfl, rfl⟩, rfl, ⟨rfl, rfl, rfl⟩, Cfg.word_fields, Coord.word_fields,
    Sample.word_fields, XferReg.word_fields, Pins.word_fields, paramsWord_fields⟩
  obtain ⟨h0, h1, h2, h3, h4, h5⟩ := v.word_flags
  exact ⟨h0, h1, h2, h3, h4, h5, v.word_fields⟩

/-! ### The map (R26) -/

/-- `hb_addr[1:0]` does not matter (R61). -/
theorem wordAddr_append (a : BitVec 6) (lo : BitVec 2) : wordAddr (a ++ lo) = 4 * a.toNat := by
  revert a lo
  decide

/-- Out of reset a read at any address of a word gives its register (R61, R64). -/
theorem State.memRead_word {s : State} (hr : s.rstN = true) (levels : Bool × Bool) (a : BitVec 6)
    (lo : BitVec 2) : s.memRead levels (a ++ lo) = s.register levels (4 * a.toNat) := by
  simp [State.memRead, hr, wordAddr_append]

/-- Above PARAMS the map holds MBUF and reserved words (R26, R55, R63). -/
theorem State.register_of_gt (s : State) (levels : Bool × Bool) {a : Nat} (ha : 0x70 < a) :
    s.register levels a =
      if 0x80 ≤ a ∧ a < 0xC0 then s.readMbuf ((a - 0x80) / 4) else 0#32 := by
  unfold State.register
  split
  case h_27 => rfl
  all_goals omega

theorem State.readMbuf_fin (s : State) (i : Fin 16) :
    s.readMbuf i = if i.val < s.build.mMax then s.mbuf[i].word else 0#32 := by
  simp [State.readMbuf, List.getD_eq_getElem?_getD]

/-- Settles O47: each read is its register's, and above PARAMS an entry of MBUF or a reserved
word. -/
theorem registerMapReads : Obligations.RegisterMapReads := by
  unfold Obligations.RegisterMapReads
  intro s levels lo hr
  simp only [State.memRead_word hr]
  refine ⟨rfl, rfl, rfl, rfl, rfl, rfl, rfl, rfl, rfl, rfl, rfl, rfl, rfl, rfl, rfl, rfl, rfl,
    fun i => ?mbuf, fun a ha => ?reserved⟩
  case mbuf =>
    have hword : (BitVec.ofNat 6 (32 + i.val)).toNat = 32 + i.val :=
      Nat.mod_eq_of_lt (by omega)
    have hindex : (4 * (32 + i.val) - 0x80) / 4 = i := by omega
    rw [hword, s.register_of_gt levels (by omega), if_pos (by omega), hindex, s.readMbuf_fin]
  case reserved =>
    obtain ha | ha := ha
    · simp only [List.mem_cons, List.not_mem_nil, or_false] at ha
      obtain rfl | rfl | rfl | rfl | rfl := ha <;> rfl
    · rw [s.register_of_gt levels (by omega), if_neg (by omega)]

/-! ### Right after reset (R26, R281) -/

theorem State.readMbuf_resetOf (b : Params) (hist : List Event) (reads : List (Byte × Word))
    (env : Env) (i : Nat) : (State.resetOf b hist reads env).readMbuf i = 0#32 := by
  have hentry : (Vector.replicate 16 Sample.zero).toList.getD i Sample.zero = Sample.zero := by
    rw [Vector.toList_replicate, List.getD_eq_getElem?_getD,
      List.getElem?_getD_replicate_default_eq]
  simp only [State.readMbuf, State.resetOf, hentry]
  split <;> rfl

/-- PINS after reset: CS_N is 1, the other lines 0, and the two inputs show their levels (R53). -/
theorem Pins.word_reset (miso pen : Bool) :
    Pins.reset.word miso pen = 0x1#32 ||| (BitVec.ofBool miso).setWidth 32 <<< 3 |||
      (BitVec.ofBool pen).setWidth 32 <<< 4 := by
  cases miso <;> cases pen <;> rfl

@[simp] theorem Cfg.word_reset : Cfg.reset.word = 0#32 := by decide
@[simp] theorem Status.word_reset : Status.reset.word = 0#32 := by decide
@[simp] theorem Coord.word_zero : (⟨0#16, 0#16⟩ : Coord).word = 0#32 := by decide
@[simp] theorem Sample.word_zero : Sample.zero.word = 0#32 := by decide
@[simp] theorem XferReg.word_zero : (⟨0#8, 0#12⟩ : XferReg).word = 0#32 := by decide

/-- Settles O52: the map at the reset values, word by word. -/
theorem resetRegisterValues : Obligations.ResetRegisterValues := by
  unfold Obligations.ResetRegisterValues
  intro b hist reads env levels a
  refine ⟨?_, rfl, rfl⟩
  unfold State.register
  split
  case h_25 => exact Pins.word_reset levels.1 levels.2
  case h_27 => simp_all [State.readMbuf_resetOf]
  all_goals simp [State.resetOf, idWord, precReset, Matrix.zero]

end Sys2Proof.Machine
end

section
/-! PROOFS. Statements of 20_memory.md about the words on the wire and in the host register space:
the bits of an exchange, and what a host write or a host read leaves every word reading. -/

namespace Sys2Proof.Machine

/-! ### Received bits (R67, R102, R106) -/

/-- The last `k` bits of a value in the order they are clocked (R67). -/
def lastBits {n : Nat} (k : Nat) (v : BitVec n) : List Bool :=
  (List.range k).map fun j => v.getLsbD (k - 1 - j)

theorem lastBits_width {n : Nat} (v : BitVec n) : lastBits n v = msbFirst v := rfl

theorem lastBits_succ {n : Nat} (k : Nat) (v : BitVec n) :
    lastBits (k + 1) v = v.getLsbD k :: lastBits k v := by
  simp [lastBits, List.range_succ_eq_map, Nat.sub_sub, Nat.add_comm 1]

theorem Env.takeMiso_cons {e : Env} {b : Bool} {rest : List Bool} (h : e.miso = b :: rest) :
    e.takeMiso = (b, { e with miso := rest }) := by
  simp [Env.takeMiso, h]

theorem withBit_getLsbD {k : Nat} (hk : k < 8) (i : Byte) (b : Bool) (j : Nat) :
    (withBit i k b).getLsbD j = (i.getLsbD j || (decide (j = k) && b)) := by
  obtain h | rfl | h := Nat.lt_trichotomy j k
  · simp [withBit, h, h.ne]
  · simp [withBit, hk]
  · have hpast : j - k ≠ 0 := Nat.sub_ne_zero_of_lt h
    simp [withBit, BitVec.getLsbD_ofBool, hpast, h.ne']

/-- The loop of R102 from bit `k - 1` down takes `k` bits, the first into bit `k - 1`, and leaves
the bits from `k` on alone. -/
theorem hwClock_bits (div : Nat) (o : Byte) {later : List Bool} (bits : List Bool) (i : Byte)
    (e : Env) (he : e.miso = bits ++ later) (hk : bits.length ≤ 8)
    (hi : ∀ j < bits.length, i.getLsbD j = false) :
    lastBits bits.length (hwClock div o bits.length i e).rx = bits ∧
      (∀ j, bits.length ≤ j → (hwClock div o bits.length i e).rx.getLsbD j = i.getLsbD j) ∧
      (hwClock div o bits.length i e).env = { e with miso := later } := by
  induction bits generalizing i e with
  | nil => exact ⟨rfl, fun _ _ => rfl, by rw [← List.nil_append later, ← he]; rfl⟩
  | cons b rest ih =>
    have ht : e.takeMiso = (b, { e with miso := rest ++ later }) := Env.takeMiso_cons he
    have hbit := withBit_getLsbD (k := rest.length) (by simpa using hk) i b
    obtain ⟨hlast, habove, henv⟩ :=
      ih (withBit i rest.length b) { e with miso := rest ++ later } rfl (Nat.le_of_succ_le hk)
        fun j hj => by simp [hbit, hi j (Nat.lt_succ_of_lt hj), Nat.ne_of_lt hj]
    have hfirst : (withBit i rest.length b).getLsbD rest.length = b := by
      simp [hbit, hi rest.length (Nat.lt_succ_self _)]
    simp only [List.length_cons, hwClock, ht, lastBits_succ, hlast, habove _ le_rfl, hfirst, henv,
      true_and, and_true]
    intro j hj
    simp [habove j (by omega), hbit, Nat.ne_of_gt hj]

theorem shiftIn_getLsbD (v : U12) (b : Bool) {j : Nat} (hj : j < 12) :
    (shiftIn v b).getLsbD j = if j = 0 then b else v.getLsbD (j - 1) := by
  cases j with
  | zero => simp [shiftIn]
  | succ j =>
    simp [shiftIn, hj, BitVec.getLsbD_eq_getElem (Nat.lt_of_succ_lt hj)]

/-- The loop of R106 shifts each bit in below the ones before it. -/
theorem read12Clock_bits (half : Nat) {later : List Bool} (bits : List Bool) (v : U12) (e : Env)
    (he : e.miso = bits ++ later) (hk : bits.length ≤ 12) :
    lastBits bits.length (read12Clock half bits.length v e).rx = bits ∧
      (∀ j, j + bits.length < 12 →
        (read12Clock half bits.length v e).rx.getLsbD (j + bits.length) = v.getLsbD j) ∧
      (read12Clock half bits.length v e).env = { e with miso := later } := by
  induction bits generalizing v e with
  | nil => exact ⟨rfl, fun _ _ => rfl, by rw [← List.nil_append later, ← he]; rfl⟩
  | cons b rest ih =>
    have ht : e.takeMiso = (b, { e with miso := rest ++ later }) := Env.takeMiso_cons he
    obtain ⟨hlast, habove, henv⟩ := ih (shiftIn v b) { e with miso := rest ++ later } rfl
      (Nat.le_of_succ_le hk)
    have hfirst : _ = b := (habove 0 (by simpa using hk)).trans (shiftIn_getLsbD v b (by decide))
    rw [Nat.zero_add] at hfirst
    simp only [List.length_cons, read12Clock, ht, lastBits_succ, hlast, hfirst, henv, true_and,
      and_true]
    intro j hj
    have hnext := habove (j + 1) (by omega)
    rw [shiftIn_getLsbD v b (by omega)] at hnext
    simpa [Nat.add_assoc, Nat.add_comm 1] using hnext

/-- The levels R106 drives: MOSI low at every rising edge, each half SW_HALF cycles. -/
theorem read12Clock_wave (half k : Nat) (v : U12) (e : Env) :
    waveBits (read12Clock half k v e).wave = List.replicate k false ∧
      waveCycles (read12Clock half k v e).wave = 2 * k * half := by
  induction k generalizing v e with
  | zero => simp [read12Clock, waveBits, waveCycles]
  | succ k ih =>
    obtain ⟨hbits, hcycles⟩ := ih (shiftIn v e.takeMiso.1) e.takeMiso.2
    simp only [waveBits, waveCycles] at hbits hcycles
    simp [read12Clock, waveBits, waveCycles, hbits, hcycles, List.replicate_succ]
    ring

/-- Settles O29: the two loops at their full widths, from 0. -/
theorem bitsArriveMostSignificantFirst : Obligations.BitsArriveMostSignificantFirst := by
  unfold Obligations.BitsArriveMostSignificantFirst
  intro div half o bits later e he
  refine ⟨fun hlen => ?exchange, fun hlen => ?read12⟩
  case exchange =>
    obtain ⟨hbits, -, henv⟩ := hwClock_bits div o bits 0#8 e he hlen.le fun _ _ => by simp
    rw [hlen, lastBits_width] at hbits
    rw [hlen] at henv
    exact ⟨hbits, henv⟩
  case read12 =>
    obtain ⟨hbits, -, henv⟩ := read12Clock_bits half bits 0#12 e he hlen.le
    obtain ⟨hmosi, hcycles⟩ := read12Clock_wave half 12 0#12 e
    rw [hlen, lastBits_width] at hbits
    rw [hlen] at henv
    exact ⟨hbits, henv, hmosi, hcycles⟩

/-! ### Host reads (R64) -/

/-- Only PINS shows the levels of the inputs (R53). -/
theorem State.register_levels (s : State) {a : Nat} (ha : a ≠ 0x6C) (levels levels' : Bool × Bool) :
    s.register levels a = s.register levels' a := by
  unfold State.register
  split
  case h_25 => exact absurd rfl ha
  all_goals rfl

theorem State.memRead_levels (s : State) {addr : Byte} (ha : wordAddr addr ≠ 0x6C)
    (levels levels' : Bool × Bool) : s.memRead levels addr = s.memRead levels' addr := by
  simp only [State.memRead, s.register_levels ha levels levels']

/-- A host read gives the register's value, with levels drawn for PINS alone (R53, R64). -/
theorem State.hostRead_cases (s : State) (addr : Byte) :
    (wordAddr addr = 0x6C ∧ s.hostRead addr =
      { s with env := s.env.takePins.2 }.gotRead addr (s.memRead s.env.takePins.1 addr)) ∨
    (s.hostRead addr = s.gotRead addr (s.memRead (false, false) addr)) := by
  unfold State.hostRead
  split
  · next h => exact .inl ⟨h.1, rfl⟩
  · exact .inr rfl

/-- Settles O50: in both cases of `hostRead_cases` the value is the register's. -/
theorem readsHaveNoSideEffect : Obligations.ReadsHaveNoSideEffect := by
  unfold Obligations.ReadsHaveNoSideEffect
  intro s addr
  have hcmd (ha : wordAddr addr = 0x08) (levels : Bool × Bool) : s.memRead levels addr = 0#32 := by
    simp [State.memRead, State.register, ha]
  obtain ⟨ha, he⟩ | he := s.hostRead_cases addr
  · rw [he]
    refine ⟨?_, fun hne => absurd ha hne, ⟨_, rfl⟩, fun h => hcmd h _, rfl, fun _ _ => rfl⟩
    conv_lhs => rw [s.env.takePins_frame]
    rfl
  · rw [he]
    exact ⟨rfl, fun hne => ⟨rfl, fun levels => s.memRead_levels hne _ levels⟩, ⟨_, rfl⟩,
      fun h => hcmd h _, rfl, fun _ _ => rfl⟩

/-! ### Host writes (R65) -/

/-- The writable fields, each with the word it lies in (R65). -/
theorem State.writeRegister_eq (s : State) (a : Nat) (w : Word) :
    s.writeRegister a w = { s with
      cfg := if a = 0x04 ∧ s.cfgLocked = false then s.cfg.write w else s.cfg
      status := { s.status with
        cmdOvr := if a = 0x0C ∧ w.getLsbD 5 then false else s.status.cmdOvr }
      waitLimit := if a = 0x14 then w else s.waitLimit
      tin := if a = 0x2C then Sample.ofWord w else s.tin
      cal := {
        a := if a = 0x30 then w else s.cal.a
        b := if a = 0x34 then w else s.cal.b
        c := if a = 0x38 then w else s.cal.c
        d := if a = 0x3C then w else s.cal.d
        e := if a = 0x40 then w else s.cal.e
        f := if a = 0x44 then w else s.cal.f } } := by
  unfold State.writeRegister
  split
  case h_1 =>
    split
    · next hl =>
      rw [if_neg (by simp [hl])]
      rfl
    · next hl => simp [hl]
  case h_2 => cases hw : w.getLsbD 5 <;> simp
  case h_11 => simp_all
  all_goals simp

theorem Cfg.write_write (c : Cfg) (w : Word) : (c.write w).write w = c.write w := by
  simp only [Cfg.write]
  split <;> simp only [*]

theorem Sample.word_ofWord (w : Word) : (Sample.ofWord w).word = w &&& 0x0FFF0FFF#32 := by
  refine BitVec.eq_of_getLsbD_eq fun i hi => ?_
  simp only [Sample.word, Sample.ofWord, BitVec.getLsbD_append, BitVec.getLsbD_and]
  interval_cases i <;> simp

theorem Status.word_cmdOvr (v : Status) :
    { v with cmdOvr := false }.word = v.word &&& 0xFFFFFFDF#32 := by
  refine BitVec.eq_of_getLsbD_eq fun i hi => ?_
  simp only [Status.word, BitVec.getLsbD_append, BitVec.getLsbD_and]
  interval_cases i <;> simp

/-- A write of the reserved MODE leaves MODE as it was (R29). -/
theorem Cfg.write_mode_bits (c : Cfg) (w : Word) :
    (c.write w).mode.bits =
      if w.extractLsb' 0 2 = 0b11#2 then c.mode.bits else w.extractLsb' 0 2 := by
  simp only [Cfg.write]
  generalize w.extractLsb' 0 2 = m
  obtain rfl | rfl | rfl | rfl : m = 0#2 ∨ m = 1#2 ∨ m = 2#2 ∨ m = 3#2 := by
    revert m
    decide
  all_goals rfl

theorem Cfg.word_write (c : Cfg) (w : Word) :
    (c.write w).word = if w.extractLsb' 0 2 = 0b11#2 then (w &&& 0x4#32) ||| (c.word &&& 0x3#32)
      else w &&& 0x7#32 := by
  have hirq : (c.write w).useIrq = w.getLsbD 2 := rfl
  rw [Cfg.word, c.write_mode_bits, hirq]
  split
  all_goals
    refine BitVec.eq_of_getLsbD_eq fun i hi => ?_
    simp only [Cfg.word, BitVec.getLsbD_append, BitVec.getLsbD_and, BitVec.getLsbD_or]
    interval_cases i <;> simp

theorem State.register_writeRegister_of_ne {a a' : Nat} (ha : a' ≠ a) (s : State) (w : Word)
    (levels : Bool × Bool) : (s.writeRegister a w).register levels a' = s.register levels a' := by
  rw [s.writeRegister_eq]
  unfold State.register
  split
  case h_27 => rfl
  all_goals simp [ha.symm]

theorem State.writeRegister_writeRegister (s : State) (a : Nat) (w : Word) :
    (s.writeRegister a w).writeRegister a w = s.writeRegister a w := by
  unfold State.writeRegister
  split
  case h_1 => cases hl : s.cfgLocked <;> simp [Cfg.write_write, hl]
  case h_2 => cases hw : w.getLsbD 5 <;> simp
  case h_11 => simp_all
  all_goals rfl

/-- Settles O48: each word reads the fields that `writeRegister_eq` gives it. -/
theorem registerWrites : Obligations.RegisterWrites := by
  unfold Obligations.RegisterWrites
  intro s levels a w
  refine ⟨?_, fun a' ha => s.register_writeRegister_of_ne ha w levels,
    s.writeRegister_writeRegister a w⟩
  rw [s.writeRegister_eq]
  unfold State.register
  split
  case h_2 => cases hl : s.cfgLocked <;> simp [Cfg.word_write]
  case h_3 => cases hw : w.getLsbD 5 <;> simp [Status.word_cmdOvr]
  case h_11 => simp [Sample.word_ofWord]
  case h_27 => simp_all
  all_goals simp

end Sys2Proof.Machine
end

section
/-! PROOFS. Statements of 20_memory.md about the command in flight: what its steps before the commit
leave alone, when results and MBUF change, and that host accesses do not reach it. -/

namespace Sys2Proof.Machine

/-! ### What no step of a command in flight reaches (R74, R289) -/

/-- The part of the state that no step of a command in flight reads or changes: what a host access
works on, the lock of CFG, `rst_n`, and the host's inputs. SET_CAL's commit alone reads `cal` (R211). -/
structure Unreached where
  cfgLocked : Bool
  cmdOvr : Bool
  waitLimit : Word
  tin : Sample
  cal : Matrix
  rstN : Bool
  rdata : Word
  reads : List (Byte × Word)
  script : List HostAction
  turns : List Agent
  hostMoves : Option Nat
  pins : List (Bool × Bool)
  freshPins : Nat

def State.unreached (s : State) : Unreached where
  cfgLocked := s.cfgLocked
  cmdOvr := s.status.cmdOvr
  waitLimit := s.waitLimit
  tin := s.tin
  cal := s.cal
  rstN := s.rstN
  rdata := s.rdata
  reads := s.reads
  script := s.env.script
  turns := s.env.turns
  hostMoves := s.env.hostMoves
  pins := s.env.pins
  freshPins := s.env.freshPins

def Env.withUnreached (o : Unreached) (e : Env) : Env :=
  { e with
    script := o.script, turns := o.turns, hostMoves := o.hostMoves
    pins := o.pins, freshPins := o.freshPins }

/-- `s` with another unreached part. -/
def State.withUnreached (o : Unreached) (s : State) : State :=
  { s with
    cfgLocked := o.cfgLocked
    status := { s.status with cmdOvr := o.cmdOvr }
    waitLimit := o.waitLimit, tin := o.tin, cal := o.cal
    rstN := o.rstN, rdata := o.rdata, reads := o.reads
    env := s.env.withUnreached o }

@[simp] theorem State.withUnreached_seq (o : Unreached) (s : State) :
    (s.withUnreached o).seq = s.seq := rfl
@[simp] theorem State.withUnreached_build (o : Unreached) (s : State) :
    (s.withUnreached o).build = s.build := rfl
@[simp] theorem State.withUnreached_modeEff (o : Unreached) (s : State) :
    (s.withUnreached o).status.modeEff = s.status.modeEff := rfl
@[simp] theorem State.withUnreached_env (o : Unreached) (s : State) :
    (s.withUnreached o).env = s.env.withUnreached o := rfl

theorem State.withUnreached_unreached (s : State) : s.withUnreached s.unreached = s := rfl

/-- `f` does not reach the unreached part `o`: it neither reads nor changes it. -/
def Misses (o : Unreached) (f : State → State) : Prop :=
  ∀ s, f (s.withUnreached o) = (f s).withUnreached o

section
variable {o : Unreached} {s t : State}

theorem Env.takeMiso_withUnreached (e : Env) :
    (e.withUnreached o).takeMiso = (e.takeMiso.1, e.takeMiso.2.withUnreached o) := by
  cases h : e.miso <;> simp [Env.takeMiso, Env.withUnreached, h]

theorem Env.takePen_withUnreached (e : Env) :
    (e.withUnreached o).takePen = (e.takePen.1, e.takePen.2.withUnreached o) := by
  cases h : e.pen <;> simp [Env.takePen, Env.withUnreached, h]

theorem hwClock_withUnreached (div : Nat) (b : Byte) (k : Nat) (i : Byte) (e : Env) :
    (hwClock div b k i (e.withUnreached o)).rx = (hwClock div b k i e).rx ∧
      (hwClock div b k i (e.withUnreached o)).env = (hwClock div b k i e).env.withUnreached o := by
  induction k generalizing i e with
  | zero => exact ⟨rfl, rfl⟩
  | succ k ih =>
    simp only [hwClock, e.takeMiso_withUnreached]
    exact ih ..

theorem read12Clock_withUnreached (half k : Nat) (v : U12) (e : Env) :
    (read12Clock half k v (e.withUnreached o)).rx = (read12Clock half k v e).rx ∧
      (read12Clock half k v (e.withUnreached o)).env =
        (read12Clock half k v e).env.withUnreached o := by
  induction k generalizing v e with
  | zero => exact ⟨rfl, rfl⟩
  | succ k ih =>
    simp only [read12Clock, e.takeMiso_withUnreached]
    exact ih ..

/-- Both engines clock alike (R105), so the statement about the hardware loop serves for both. -/
theorem State.exchange_withUnreached (b : Byte) (s : State) :
    ((s.withUnreached o).exchange b).rx = (s.exchange b).rx ∧
      ((s.withUnreached o).exchange b).env = (s.exchange b).env.withUnreached o := by
  obtain ⟨hrx, henv⟩ := hwClock_withUnreached (o := o) s.build.hwDiv b 8 0#8 s.env
  have hs := swClock_eq_hwClock s.build.hwDiv s.build.swHalf b 8 0#8
  unfold State.exchange
  rw [State.withUnreached_modeEff]
  split
  · exact ⟨hrx, henv⟩
  · obtain ⟨hrx', henv'⟩ := hs s.env
    obtain ⟨hrx'', henv''⟩ := hs (s.env.withUnreached o)
    exact ⟨hrx''.trans (hrx.trans hrx'.symm),
      henv''.trans (henv.trans (congrArg (Env.withUnreached o) henv'.symm))⟩

/-! ### Primitives -/

theorem State.busXfer_withUnreached (b : Byte) (s : State) :
    (s.withUnreached o).busXfer b = ((s.busXfer b).1, (s.busXfer b).2.withUnreached o) := by
  obtain ⟨hrx, henv⟩ := s.exchange_withUnreached (o := o) b
  simp only [State.busXfer, hrx, henv]
  rfl

theorem State.busRead12_withUnreached (s : State) :
    (s.withUnreached o).busRead12 = (s.busRead12.1, s.busRead12.2.withUnreached o) := by
  obtain ⟨hrx, henv⟩ := read12Clock_withUnreached (o := o) s.build.swHalf 12 0#12 s.env
  have hread : (swRead12 s.build.swHalf (s.env.withUnreached o)).rx = _ := hrx
  have hleft : (swRead12 s.build.swHalf (s.env.withUnreached o)).env = _ := henv
  simp only [State.busRead12, State.withUnreached_build, State.withUnreached_env, hread, hleft]
  rfl

theorem State.penSample_withUnreached (s : State) :
    (s.withUnreached o).penSample = (s.penSample.1, s.penSample.2.withUnreached o) := by
  simp only [State.penSample, State.withUnreached_env, s.env.takePen_withUnreached]
  rfl

theorem State.axisStep_withUnreached (c : Byte) (p : AxisPos) (s : State) :
    (s.withUnreached o).axisStep c p =
      ((s.axisStep c p).1, (s.axisStep c p).2.withUnreached o) := by
  cases p with
  | command => simp only [State.axisStep, s.busXfer_withUnreached]
  | settle => rfl
  | highByte =>
    simp only [State.axisStep, s.busXfer_withUnreached]
    rfl
  | lowByte => simp only [State.axisStep, s.busXfer_withUnreached, State.withUnreached_seq]
  | read12 => simp only [State.axisStep, s.busRead12_withUnreached]

theorem State.rawStep_withUnreached {done : Sample → State → State} (hd : ∀ v, Misses o (done v))
    (u : Use) (p : RawPos) : Misses o (State.rawStep u p done) := by
  intro s
  cases p with
  | csOn => rfl
  | csOff => exact hd ⟨s.seq.res.x, s.seq.res.y⟩ (s.setCs false)
  | x q =>
    simp only [State.rawStep, State.withUnreached_build, s.axisStep_withUnreached]
    rcases s.axisStep s.build.cmdX q with ⟨_ | _, t⟩ <;> rfl
  | y q =>
    simp only [State.rawStep, State.withUnreached_build, s.axisStep_withUnreached]
    rcases s.axisStep s.build.cmdY q with ⟨_ | _, t⟩ <;> rfl

theorem State.sampleStep_withUnreached {done : Bool → State → State} (hd : ∀ b, Misses o (done b))
    (u : Use) (p : RawPos) : Misses o (State.sampleStep u p done) :=
  State.rawStep_withUnreached (fun v => hd v.valid) u p

theorem State.penStep_withUnreached {done : Bool → State → State} (hd : ∀ b, Misses o (done b)) :
    Misses o (State.penStep done) := by
  intro s
  rw [State.penStep, s.penSample_withUnreached]
  exact hd _ _

/-! ### The computations around the last primitive of a transaction or a check -/

theorem sampleDone_misses {done : Sample → State → State} (hd : ∀ v, Misses o (done v))
    (v : Sample) : Misses o (sampleDone done v) := by
  intro s
  simp only [sampleDone, apply_ite (State.withUnreached o)]
  exact if_congr Iff.rfl rfl (hd (s.accumulate v).mean (s.accumulate v))

theorem State.goto_misses (p : Pos) : Misses o (State.goto p) := fun _ => rfl

theorem State.keepToCommit_misses (f : Results → Results) :
    Misses o fun s => (s.keep f).goto .commit := fun _ => rfl

theorem discardDone_misses : Misses o discardDone := fun _ => rfl

theorem measurementDone_misses (m : Sample) : Misses o (measurementDone m) := fun _ => rfl

theorem checkDone_misses (b : Bool) : Misses o (checkDone b) := by
  intro s
  simp only [checkDone, apply_ite (State.withUnreached o)]
  rfl

theorem gateDone_misses (b : Bool) : Misses o (gateDone b) := fun _ => rfl

theorem isTouchedDone_misses (b : Bool) : Misses o (isTouchedDone b) :=
  State.keepToCommit_misses _

theorem waitDone_misses (target b : Bool) : Misses o (waitDone target b) := by
  intro s
  simp only [waitDone, apply_ite (State.withUnreached o)]
  rfl

/-! ### The commands -/

theorem gatherStep_withUnreached (o : Unreached) (s : State) :
    gatherStep (s.withUnreached o) = (gatherStep s).map (State.withUnreached o) := by
  unfold gatherStep
  rw [State.withUnreached_seq]
  split
  · exact congrArg some (State.rawStep_withUnreached (fun _ => discardDone_misses) _ _ s)
  · exact congrArg some
      (State.rawStep_withUnreached (sampleDone_misses measurementDone_misses) _ _ s)
  · exact congrArg some (State.penStep_withUnreached checkDone_misses s)
  · exact congrArg some (State.sampleStep_withUnreached checkDone_misses _ _ s)
  all_goals rfl

theorem readTouchCommit_misses : Misses o readTouchCommit := by
  intro s
  simp only [readTouchCommit, apply_ite (State.withUnreached o)]
  rfl

theorem stepReadTouch_withUnreached (o : Unreached) (s : State) :
    stepReadTouch (s.withUnreached o) = (stepReadTouch s).map (State.withUnreached o) := by
  unfold stepReadTouch
  rw [State.withUnreached_seq]
  split
  · exact congrArg some (State.penStep_withUnreached gateDone_misses s)
  · exact congrArg some (State.sampleStep_withUnreached gateDone_misses _ _ s)
  · exact congrArg some (readTouchCommit_misses s)
  iterate 8 (· exact gatherStep_withUnreached o s)
  all_goals rfl

theorem stepWait_withUnreached (o : Unreached) (target : Bool) (s : State) :
    stepWait target (s.withUnreached o) = (stepWait target s).map (State.withUnreached o) := by
  unfold stepWait
  rw [State.withUnreached_seq]
  split
  · exact congrArg some (State.penStep_withUnreached (waitDone_misses target) s)
  · exact congrArg some (State.sampleStep_withUnreached (waitDone_misses target) _ _ s)
  all_goals rfl

theorem stepReadAxis_withUnreached (o : Unreached) (s : State) :
    stepReadAxis (s.withUnreached o) = (stepReadAxis s).map (State.withUnreached o) := by
  unfold stepReadAxis
  rw [State.withUnreached_seq]
  split
  · next p _ =>
    rw [s.axisStep_withUnreached]
    rcases s.axisStep s.seq.arg p with ⟨_ | _, t⟩ <;> rfl
  all_goals rfl

/-- A step of the command in flight neither reads nor changes the unreached part, but that SET_CAL
reads the staged matrix (R211). -/
theorem stepOf_withUnreached {i : Instr} (ho : i.opcode ≠ 0x05#8 ∨ o.cal = s.cal) :
    stepOf i (s.withUnreached o) = (stepOf i s).map (State.withUnreached o) := by
  cases i
  case readTouch => exact stepReadTouch_withUnreached o s
  case waitTouch | waitRelease => exact stepWait_withUnreached o _ s
  case readAxis => exact stepReadAxis_withUnreached o s
  case gather =>
    simp only [stepOf, stepGather, State.withUnreached_seq]
    split
    · rfl
    all_goals exact gatherStep_withUnreached o s
  case isTouched =>
    simp only [stepOf, stepIsTouched, State.withUnreached_seq]
    split
    · exact congrArg some (State.penStep_withUnreached isTouchedDone_misses s)
    · exact congrArg some (State.sampleStep_withUnreached isTouchedDone_misses _ _ s)
    all_goals rfl
  case measure =>
    simp only [stepOf, stepMeasure, State.withUnreached_seq]
    split
    · exact congrArg some (State.rawStep_withUnreached (fun _ => discardDone_misses) _ _ s)
    · exact congrArg some (State.rawStep_withUnreached
        (sampleDone_misses fun _ => State.keepToCommit_misses _) _ _ s)
    all_goals rfl
  case readRaw =>
    simp only [stepOf, stepReadRaw, State.withUnreached_seq]
    split
    · exact congrArg some (State.rawStep_withUnreached (fun _ => State.goto_misses _) _ _ s)
    all_goals rfl
  case xferWrite | xferRead =>
    simp only [stepOf, stepXferWrite, stepXferRead, State.withUnreached_seq,
      s.busXfer_withUnreached]
    split <;> rfl
  case setCal =>
    have hcal : o.cal = s.cal := ho.resolve_left (by simp [Instr.opcode])
    simp only [stepOf, stepSetCal, State.withUnreached_seq]
    split
    · exact congrArg (fun m => some (({ s with calAct := m }.commit .none).withUnreached o)) hcal
    all_goals rfl
  case nop | init | setPrec | transform | csAssert | csDeassert =>
    simp only [stepOf, stepNop, stepInit, stepSetPrec, stepTransform, stepCsAssert,
      stepCsDeassert, State.withUnreached_seq]
    split <;> rfl

/-- So the unreached part stays as it was (R74). -/
theorem stepOf_unreached {i : Instr} (hs : stepOf i s = some t) : t.unreached = s.unreached := by
  have h := stepOf_withUnreached (i := i) (s := s) (o := s.unreached) (.inr rfl)
  rw [s.withUnreached_unreached, hs] at h
  exact (congrArg State.unreached (Option.some.inj h) :)

end

theorem commitOf_busy (i : Instr) (s : State) : (commitOf i s).status.busy = false := by
  cases i
  case readTouch =>
    simp only [commitOf, readTouchCommit]
    split <;> rfl
  all_goals rfl

section
variable {i : Instr} {s t : State}

/-- While `i` is in flight its meaning is the step of its pseudocode. -/
theorem exec_iff_stepOf (hb : s.status.busy = true) (hi : s.seq.inFlight = some i) :
    exec i s = .next t ↔ stepOf i s = some t := by
  rw [exec_eq_command, State.command, if_neg (by simp [hb]), if_pos hi]
  cases stepOf i s <;> simp

/-- A step that leaves BUSY = 1 is none of the commit. -/
theorem not_commit_of_busy (hs : stepOf i s = some t) (hb : t.status.busy = true) :
    s.seq.pos ≠ .commit := by
  intro hpos
  rw [stepOf_commit hpos, Option.some.injEq] at hs
  rw [← hs, commitOf_busy] at hb
  exact absurd hb (by decide)

end

/-- Settles O26: the frame of the registers (R57), and the unreached part for the host's inputs. -/
theorem stepsBeforeCommitFrame : Obligations.StepsBeforeCommitFrame := by
  unfold Obligations.StepsBeforeCommitFrame
  intro i s t hb hi hs htb
  rw [exec_iff_stepOf hb hi] at hs
  have hf := (stepOf_body (not_commit_of_busy hs htb) hs).frame
  have henv : t.env.withUnreached s.unreached = t.env := by rw [← stepOf_unreached hs]; rfl
  have hscript : t.env.script = s.env.script := (congrArg (·.env.script) hf :)
  rw [← hscript, ← henv] at hf
  exact hf

/-! ### Host accesses (R74, R64) -/

section
variable {i : Instr} {s t : State}

/-- A write that does not change CFG changes the unreached part alone. -/
theorem State.writeRegister_eq_withUnreached {a : Nat} (w : Word)
    (ha : ¬ (a = 0x04 ∧ s.cfgLocked = false)) :
    s.writeRegister a w = s.withUnreached (s.writeRegister a w).unreached := by
  rw [s.writeRegister_eq, if_neg ha]
  rfl

theorem State.writeRegister_cal {a : Nat} (w : Word) (ha : a < 0x30 ∨ 0x44 < a) :
    (s.writeRegister a w).cal = s.cal := by
  rw [s.writeRegister_eq]
  simp (disch := omega) only [if_neg]

/-- A write to CFG before INIT stores its fields (R29). -/
theorem State.writeRegister_cfg {w : Word} (hl : s.cfgLocked = false) :
    s.writeRegister 0x04 w = { s with cfg := s.cfg.write w } := by
  simp [State.writeRegister, hl]

/-- What a write makes of the unreached part depends on nothing else. -/
theorem State.writeRegister_unreached (a : Nat) (w : Word) (ht : t.unreached = s.unreached) :
    (t.writeRegister a w).unreached = (s.writeRegister a w).unreached := by
  rw [t.writeRegister_eq, s.writeRegister_eq]
  simp_all [State.unreached]

/-- The commands that can be in flight while CFG is unlocked only commit, and read no CFG. -/
theorem stepOf_withCfg (c : Cfg) (hn : needsInit i = false) (hl : locksCfg i = false) :
    stepOf i { s with cfg := c } = (stepOf i s).map fun t => { t with cfg := c } := by
  cases i
  case nop | setCal | setPrec | transform =>
    simp only [stepOf, stepNop, stepSetCal, stepSetPrec, stepTransform]
    split <;> rfl
  case init => cases hl
  all_goals cases hn

/-- CFG is locked while a command that reads it is in flight (R30, R232). -/
theorem State.InFlightOk.of_unlocked (ok : s.InFlightOk i) (hl : s.cfgLocked = false) :
    needsInit i = false ∧ locksCfg i = false := by
  have h := ok.locked
  rw [hl, eq_comm, Bool.or_eq_false_iff] at h
  obtain ⟨hdone, hlock⟩ := h
  refine ⟨?_, hlock⟩
  by_contra hn
  simp [ok.initialised (by simpa using hn)] at hdone

/-- The command's step and a write commute (R74). -/
theorem stepOf_writeRegister {a : Nat} {w : Word} (ok : s.InFlightOk i)
    (ha : i.opcode ≠ 0x05#8 ∨ a < 0x30 ∨ 0x44 < a) (hs : stepOf i s = some t) :
    stepOf i (s.writeRegister a w) = some (t.writeRegister a w) := by
  have ht := stepOf_unreached hs
  have hlock : t.cfgLocked = s.cfgLocked := congrArg Unreached.cfgLocked ht
  by_cases hcfg : a = 0x04 ∧ s.cfgLocked = false
  · obtain ⟨rfl, hl⟩ := hcfg
    obtain ⟨hn, hlk⟩ := ok.of_unlocked hl
    have hkeep : t.cfg = s.cfg := by
      have h := stepOf_withCfg (s := s) s.cfg hn hlk
      rw [show { s with cfg := s.cfg } = s from rfl, hs] at h
      exact (congrArg State.cfg (Option.some.inj h) :)
    rw [State.writeRegister_cfg hl, State.writeRegister_cfg (hlock.trans hl),
      stepOf_withCfg _ hn hlk, hs, hkeep]
    rfl
  · rw [State.writeRegister_eq_withUnreached w hcfg,
      State.writeRegister_eq_withUnreached (s := t) w (hlock ▸ hcfg),
      State.writeRegister_unreached a w ht,
      stepOf_withUnreached (ha.imp_right (State.writeRegister_cal w)), hs]
    rfl

/-- The command's step and a read commute, and the read gives the same (R64). -/
theorem stepOf_hostRead (addr : Byte) (hs : stepOf i s = some t) :
    stepOf i (s.hostRead addr) = some { t with
      rdata := (s.hostRead addr).rdata, reads := (s.hostRead addr).reads
      env := { t.env with
        pins := (s.hostRead addr).env.pins, freshPins := (s.hostRead addr).env.freshPins } } := by
  obtain ⟨hread, -⟩ := readsHaveNoSideEffect s addr
  have ho := congrArg State.unreached hread
  have hover : s.hostRead addr = s.withUnreached (s.hostRead addr).unreached :=
    hread.trans (by rw [ho]; rfl)
  calc stepOf i (s.hostRead addr)
    _ = stepOf i (s.withUnreached (s.hostRead addr).unreached) := congrArg (stepOf i) hover
    _ = some (t.withUnreached (s.hostRead addr).unreached) := by
      rw [stepOf_withUnreached (.inr (by rw [ho]; rfl)), hs]
      rfl
    _ = _ := by
      rw [ho, ← State.withUnreached_unreached t, stepOf_unreached hs]
      rfl

end

/-- Settles O60: a write to CFG can meet only a command that reads no CFG; every other write and
every read work on the unreached part alone. -/
theorem hostAccessesDoNotReachTheCommand : Obligations.HostAccessesDoNotReachTheCommand := by
  unfold Obligations.HostAccessesDoNotReachTheCommand
  intro i s t a w h hb hi hs
  obtain ⟨-, j, hj, ok⟩ := h.inFlight hb
  obtain rfl : j = i := Option.some.inj (hj.symm.trans hi)
  rw [exec_iff_stepOf hb hi] at hs
  refine ⟨fun ha => ?write, fun addr => ?read⟩
  case write =>
    have hbusy : (s.writeRegister a w).status.busy = true := by rw [s.writeRegister_eq]; exact hb
    have hflight : (s.writeRegister a w).seq.inFlight = some j := by
      rw [s.writeRegister_eq]; exact hi
    rw [exec_iff_stepOf hbusy hflight]
    exact stepOf_writeRegister ok ha hs
  case read =>
    obtain ⟨hread, -⟩ := readsHaveNoSideEffect s addr
    have hbusy : (s.hostRead addr).status.busy = true := by rw [hread]; exact hb
    have hflight : (s.hostRead addr).seq.inFlight = some j := by rw [hread]; exact hi
    rw [exec_iff_stepOf hbusy hflight]
    exact stepOf_hostRead addr hs

/-! ### When results and MBUF change (R71, R286) -/

/-- The result registers and MBUF. -/
def State.results (s : State) : VisibleRegs × Vector Sample 16 := (s.visible, s.mbuf)

theorem State.writeRegister_results (a : Nat) (w : Word) (s : State) :
    (s.writeRegister a w).results = s.results := by
  rw [s.writeRegister_eq]
  rfl

theorem State.hostRead_results (addr : Byte) (s : State) :
    (s.hostRead addr).results = s.results := by
  obtain ⟨hread, -⟩ := readsHaveNoSideEffect s addr
  rw [hread]
  rfl

/-- A host action that is neither a meaning nor a reset leaves the results alone. -/
theorem State.hostMove_results {s u : State} {a : HostAction} {rest : List HostAction}
    (ha : a ≠ .reset ∧ a ≠ .setRst false) (hm : s.hostMove a rest = .done u) :
    u.results = s.results := by
  cases a with
  | write addr w =>
    simp only [State.hostMove] at hm
    obtain ⟨-, he⟩ | ⟨-, -, he⟩ | ⟨-, -, ⟨-, he⟩ | ⟨-, i, -, he⟩ | ⟨-, err, -, he⟩⟩ :=
      (s.setScript rest).hostWrite_cases addr w
    all_goals rw [he] at hm; cases hm
    · rfl
    · exact State.writeRegister_results _ w _
    all_goals rfl
  | read addr => cases hm; exact State.hostRead_results addr _
  | waitIdle => cases hm; exact State.hostRead_results _ (s.setScript _)
  | reset => exact absurd rfl ha.1
  | setRst level =>
    cases level with
    | false => exact absurd rfl ha.2
    | true => cases hm; rfl

/-- A CMD write while the block is idle is accepted or refused, and writes no result. -/
theorem exec_results_of_idle {i : Instr} {s t : State} (hb : s.status.busy = false)
    (hs : exec i s = .next t) : t.results = s.results := by
  rw [exec_eq_command, State.command_idle hb] at hs
  cases hs
  unfold State.submit
  split <;> rfl

/-- The host's step writes no result, unless it is a reset. -/
theorem step_results_of_hostTurn {s t : State} (hturn : s.nextIsSequencer = false)
    (hreset : s.nextIsReset = false) (hs : step s = .next t) : t.results = s.results := by
  unfold step at hs
  obtain ⟨hn, -⟩ | ⟨-, a, rest, e, hscript, -, hm⟩ | ⟨-, -, hm⟩ := s.nextMove_cases
  · exact absurd hn (by simp [hturn])
  · rw [hm] at hs
    cases hh : { s with env := e }.hostMove a rest with
    | done u =>
      rw [hh] at hs
      cases hs
      exact State.hostMove_results (s := { s with env := e })
        (not_reset_of_nextIsReset hscript hturn hreset) hh
    | run i u =>
      rw [hh] at hs
      obtain ⟨rfl, -, hb⟩ := State.hostMove_run hh
      exact (exec_results_of_idle (s := { s with env := e }.setScript rest) hb hs :)
    | stuck f =>
      rw [hh] at hs
      cases hs
  · rw [hm] at hs
    cases hs
    rfl

/-- The sequencer's step is one of the command in flight, from a state that differs in its inputs
alone. -/
theorem step_of_sequencerTurn {s t : State} (hturn : s.nextIsSequencer = true)
    (hs : step s = .next t) :
    ∃ e i, s.status.busy = true ∧ s.seq.inFlight = some i ∧
      stepOf i { s with env := e } = some t := by
  obtain ⟨hb, -⟩ : s.status.busy = true ∧ s.rstN = true := by
    simp only [State.nextIsSequencer, State.sequencerReady, Bool.and_eq_true] at hturn
    exact hturn.1
  unfold step at hs
  obtain ⟨-, e, -, hm⟩ | ⟨hn, -⟩ | ⟨hn, -⟩ := s.nextMove_cases
  · rw [hm, State.sequencerMove] at hs
    cases hi : s.seq.inFlight with
    | none => simp [hi] at hs
    | some i =>
      simp only [hi] at hs
      exact ⟨e, i, hb, rfl, (exec_iff_stepOf (s := { s with env := e }) hb hi).1 hs⟩
  · exact absurd hturn (by simp [hn])
  · exact absurd hturn (by simp [State.nextIsSequencer, hn])

/-- In `s` the last sample of measurement `i` is read: in `t` the measurement stands in entry `i` of
`mvals` and of MBUF (R55, R193). -/
def StoresMeasurement (s t : State) : Prop :=
  s.seq.pos = .raw .sample .csOff ∧
    ∃ m : Sample, t.mbuf = s.mbuf.setIfInBounds s.seq.i m ∧
      t.mvals = s.mvals.setIfInBounds s.seq.i m

section
variable {i : Instr} {s t : State}

theorem sampleDone_mbuf (v : Sample) (hpos : s.seq.pos = .raw .sample .csOff) :
    (sampleDone measurementDone v (s.setCs false)).mbuf = s.mbuf ∨
      StoresMeasurement s (sampleDone measurementDone v (s.setCs false)) := by
  unfold sampleDone
  split
  · exact .inl rfl
  · exact .inr ⟨hpos, _, rfl, rfl⟩

theorem gatherStep_mbuf (hs : gatherStep s = some t) : t.mbuf = s.mbuf ∨ StoresMeasurement s t := by
  unfold gatherStep at hs
  split at hs <;> cases hs
  · exact .inl ((s.rawStep_body (g := false) discardDone_body _ _).mbuf rfl)
  · next p hpos =>
    obtain ⟨-, he⟩ | ⟨rfl, he⟩ | ⟨-, -, t, q, he, ss, -⟩ :=
      s.rawStep_cases .sample p (sampleDone measurementDone)
    all_goals rw [he]
    · exact .inl rfl
    · exact sampleDone_mbuf _ hpos
    · exact .inl (ss.body (g := false).mbuf rfl)
  · exact .inl ((s.penStep_body (g := false) checkDone_body).mbuf rfl)
  · exact .inl ((s.sampleStep_body (g := false) checkDone_body _ _).mbuf rfl)

theorem commitOf_mbuf (i : Instr) (s : State) : (commitOf i s).mbuf = s.mbuf := by
  cases i
  case readTouch =>
    simp only [commitOf, readTouchCommit]
    split <;> rfl
  all_goals rfl

/-- MBUF changes only when a command that gathers stores a measurement. -/
theorem stepOf_mbuf (hs : stepOf i s = some t) :
    t.mbuf = s.mbuf ∨ (gathers i = true ∧ StoresMeasurement s t) := by
  by_cases hpos : s.seq.pos = .commit
  · rw [stepOf_commit hpos, Option.some.injEq] at hs
    exact .inl (hs ▸ commitOf_mbuf i s)
  · cases hg : gathers i with
    | false => exact .inl ((stepOf_body hpos hs).mbuf hg)
    | true =>
      refine (?_ : t.mbuf = s.mbuf ∨ StoresMeasurement s t).imp_right fun h => ⟨rfl, h⟩
      cases i
      case gather =>
        simp only [stepOf, stepGather] at hs
        split at hs
        · exact absurd ‹_› hpos
        all_goals exact gatherStep_mbuf hs
      case readTouch =>
        simp only [stepOf, stepReadTouch] at hs
        split at hs
        · cases hs
          exact .inl ((s.penStep_body (g := false) gateDone_body).mbuf rfl)
        · cases hs
          exact .inl ((s.sampleStep_body (g := false) gateDone_body _ _).mbuf rfl)
        · exact absurd ‹_› hpos
        iterate 8 (· exact gatherStep_mbuf hs)
        all_goals cases hs
      all_goals cases hg

/-- A step that changes a result register is the commit, which clears BUSY. -/
theorem stepOf_visible (hs : stepOf i s = some t) :
    t.visible = s.visible ∨ t.status.busy = false := by
  by_cases hpos : s.seq.pos = .commit
  · rw [stepOf_commit hpos, Option.some.injEq] at hs
    exact .inr (hs ▸ commitOf_busy i s)
  · rw [(stepOf_body hpos hs).frame]
    exact .inl rfl

end

theorem gathers_cases {i : Instr} (h : gathers i = true) :
    ∃ arg, i = .gather arg ∨ i = .readTouch arg := by
  cases i <;> simp_all [gathers]

/-- Settles O56: the host's step writes no result, and the sequencer's step is one of the command in
flight. -/
theorem resultsChangeOnlyAtTheirSteps : Obligations.ResultsChangeOnlyAtTheirSteps := by
  unfold Obligations.ResultsChangeOnlyAtTheirSteps
  intro s t hs hreset
  cases hturn : s.nextIsSequencer with
  | false =>
    obtain ⟨hvis, hmbuf⟩ := Prod.mk.inj (step_results_of_hostTurn hturn hreset hs)
    exact ⟨fun h => absurd hvis h, fun h => absurd hmbuf h⟩
  | true =>
    obtain ⟨e, i, hb, hi, hstep⟩ := step_of_sequencerTurn hturn hs
    refine ⟨fun h => ⟨rfl, hb, (stepOf_visible hstep).resolve_left h⟩, fun h => ?_⟩
    obtain ⟨hg, hpos, hm⟩ := (stepOf_mbuf hstep).resolve_left h
    obtain ⟨arg, hcmd⟩ := gathers_cases hg
    exact ⟨rfl, hb, hpos, ⟨arg, by simpa [hi] using hcmd⟩, hm⟩

end Sys2Proof.Machine
end

section
/-! PROOFS. Statements of 30_encoding.md: the decoder and the encoder, the step that a CMD write or
the command in flight takes, and what an acceptance writes. -/

namespace Sys2Proof

/-! ### Decoding and encoding (R80–R83, R90) -/

/-- R83: the OP values that are no command. -/
abbrev IsReservedOp (op : Byte) : Prop :=
  op.toNat = 0x07 ∨ (0x0C ≤ op.toNat ∧ op.toNat ≤ 0x0F) ∨ 0x16 ≤ op.toNat

/-- R90: two fields are one command's OP and ARG, or the OP is reserved; never both. -/
theorem decodeFields_cases (op arg : Byte) :
    (¬ IsReservedOp op ∧ ∃ i, decodeFields op arg = .ok i ∧ i.opcode = op ∧ i.arg = arg) ∨
      (IsReservedOp op ∧ decodeFields op arg = .error (.reservedOp op)) := by
  unfold decodeFields
  split
  case h_18 =>
    refine .inr ⟨?_, rfl⟩
    simp only [imp_false] at *
    omega
  all_goals
    next hop =>
    exact .inl ⟨by simp [IsReservedOp, hop], _, rfl, BitVec.eq_of_toNat_eq hop.symm, rfl⟩

/-- R81: the fields of a command decode to it. -/
@[simp] theorem decodeFields_opcode_arg (i : Instr) : decodeFields i.opcode i.arg = .ok i := by
  cases i <;> rfl

/-- A command has the fields it is decoded from. -/
theorem opcode_arg_of_decodeFields {op arg : Byte} {i : Instr} (h : decodeFields op arg = .ok i) :
    i.opcode = op ∧ i.arg = arg := by
  obtain ⟨-, j, hj, hfields⟩ | ⟨-, herr⟩ := decodeFields_cases op arg
  · obtain rfl : j = i := Except.ok.inj (hj.symm.trans h)
    exact hfields
  · cases herr.symm.trans h

@[simp] theorem encodeWith_op (rsvd : BitVec 16) (i : Instr) :
    (encodeWith rsvd i).extractLsb' 0 8 = i.opcode :=
  BitVec.extractLsb'_append_eq_right

@[simp] theorem encodeWith_arg (rsvd : BitVec 16) (i : Instr) :
    (encodeWith rsvd i).extractLsb' 8 8 = i.arg :=
  (BitVec.extractLsb'_append_eq_of_le le_rfl).trans BitVec.extractLsb'_append_eq_right

/-- R80: a word is its three fields, most significant first. -/
theorem fields_append (w : Word) :
    w.extractLsb' 16 16 ++ w.extractLsb' 8 8 ++ w.extractLsb' 0 8 = w := by
  rw [BitVec.extractLsb'_append_extractLsb'_eq_extractLsb' (show 16 = 8 + 8 from rfl),
    BitVec.extractLsb'_append_extractLsb'_eq_extractLsb' (show 8 = 0 + 8 from rfl)]
  exact BitVec.extractLsb'_eq_self

/-- Settles O1: an encoded word has the command's fields, and a word is its fields. -/
theorem decodeInvertsEncode : Obligations.DecodeInvertsEncode := by
  unfold Obligations.DecodeInvertsEncode
  refine ⟨fun rsvd i => by simp [decode], fun w i h => ?_⟩
  obtain ⟨hop, harg⟩ := opcode_arg_of_decodeFields h
  rw [encodeWith, hop, harg, fields_append]

/-- Settles O2: the two cases of the opcode map exclude each other. -/
theorem reservedOpcodesExactly : Obligations.ReservedOpcodesExactly := by
  unfold Obligations.ReservedOpcodesExactly
  intro w
  obtain ⟨hop, i, hi, hfields⟩ | ⟨hop, herr⟩ :=
    decodeFields_cases (w.extractLsb' 0 8) (w.extractLsb' 8 8)
  · exact ⟨⟨fun h => (nomatch hi.symm.trans h), fun h => absurd h hop⟩, fun _ => ⟨i, hi, hfields⟩⟩
  · exact ⟨⟨fun _ => hop, fun _ => herr⟩, fun h => absurd herr h⟩

/-- Settles O3: each word is evaluated. -/
theorem specWordsDecode : Obligations.SpecWordsDecode := by
  unfold Obligations.SpecWordsDecode
  decide

end Sys2Proof

namespace Sys2Proof.Machine

/-! ### Acceptance (R84) -/

/-- What each command latches, by its OP (R84, R74). -/
theorem latchOperands_eq (i : Instr) (s : State) (q : Seq) :
    latchOperands i s q = { q with
      tin := if i.opcode = 0x0B#8 then s.tin else q.tin
      limit := if i.opcode = 0x03#8 ∨ i.opcode = 0x04#8 then s.waitLimit else q.limit
      cfg := if i.opcode = 0x01#8 then s.cfg else q.cfg } := by
  cases i <;> rfl

/-- An idle block accepts a command that meets no check (R84). -/
theorem exec_of_check_none {i : Instr} {s : State} (idle : s.status.busy = false)
    (hc : check i s = .none) : exec i s = .next (s.accept i (startPos i s)) := by
  rw [exec_eq_command, State.command_idle idle, State.submit, if_pos hc]

/-- Settles O9: the command is accepted, and the operands it latches are those of its OP. -/
theorem acceptanceLatchesOperands : Obligations.AcceptanceLatchesOperands := by
  unfold Obligations.AcceptanceLatchesOperands
  intro i s idle hc
  rw [exec_of_check_none idle hc, State.accept, latchOperands_eq, locksCfg_eq]

/-! ### The step of a command (R6, R25, R84) -/

/-- A CMD write runs the command it decodes to, out of reset and while idle (R84). -/
theorem State.hostWrite_cmd {s : State} {addr : Byte} {w : Word} {i : Instr} (hr : s.rstN = true)
    (ha : wordAddr addr = 0x08) (idle : s.status.busy = false) (hi : decode w = .ok i) :
    s.hostWrite addr w = .run i s := by
  simp [State.hostWrite, State.writeCmd, hr, ha, idle, hi]

/-- The next step is the sequencer's, and `e` are the inputs it starts from (R6): the host has no
action left, or the turn taken is the sequencer's. -/
theorem State.nextMove_of_sequencerTurn {s : State} {e : Env} (hq : s.sequencerReady = true)
    (he : s.env.script = [] ∧ e = s.env ∨
      s.env.script ≠ [] ∧ s.env.takeTurn = (.sequencer, e)) :
    s.nextMove = { s with env := e }.sequencerMove := by
  obtain ⟨hs, rfl⟩ | ⟨hs, ht⟩ := he
  · simp [State.nextMove, hs, hq]
  · obtain ⟨a, rest, hscript⟩ := List.exists_cons_of_ne_nil hs
    simp [State.nextMove, hscript, hq, ht]

/-- On its turn the sequencer runs the command in flight (R25). -/
theorem step_of_sequencerMove {s : State} {i : Instr} {e : Env} (hi : s.seq.inFlight = some i)
    (hm : s.nextMove = { s with env := e }.sequencerMove) :
    step s = exec i { s with env := e } := by
  simp only [step, hm, State.sequencerMove, hi]

/-- Settles O4: an idle block leaves the step to the host, whose action is the CMD write; with a
command in flight the step is the sequencer's where the host has no action, or not the turn. -/
theorem stepRunsTheCommand : Obligations.StepRunsTheCommand := by
  unfold Obligations.StepRunsTheCommand
  refine ⟨fun s addr w rest i hs ha hr idle hi => ?written, fun s i hb hr hi => ?inFlight⟩
  case written =>
    have hm : s.nextMove = s.hostMove (.write addr w) rest :=
      State.nextMove_of_hostTurn hs (.inl ⟨by simp [State.sequencerReady, idle], rfl⟩)
    have hw : (s.setScript rest).hostWrite addr w = .run i (s.setScript rest) :=
      State.hostWrite_cmd hr ha idle hi
    change step s = exec i (s.setScript rest)
    simp only [step, hm, State.hostMove, hw]
  case inFlight =>
    have hq : s.sequencerReady = true := by simp [State.sequencerReady, hb, hr]
    exact ⟨fun hs => step_of_sequencerMove hi (State.nextMove_of_sequencerTurn hq (.inl ⟨hs, rfl⟩)),
      fun e hs ht => step_of_sequencerMove hi (State.nextMove_of_sequencerTurn hq (.inr ⟨hs, ht⟩))⟩

end Sys2Proof.Machine
end

section
/-! PROOFS. Statements of 40_transport.md: the waves of the two serial engines, what drives chip
select, and the transport commands from acceptance to commit. -/

namespace Sys2Proof.Machine

/-! ### The serial engines (R102, R103, R105) -/

/-- The software engine is the hardware engine with a divider of twice SW_HALF (R105). -/
theorem swClock_eq_hwClock_two_mul (half : Nat) (o : Byte) (k : Nat) (i : Byte) (e : Env) :
    swClock half o k i e = hwClock (2 * half) o k i e := by
  induction k generalizing i e with
  | zero => rfl
  | succ k ih => simp [swClock, hwClock, ih]

/-- The loop of R102 from bit `k - 1` down shows the last `k` bits on `ts_mosi`. -/
theorem hwClock_waveBits (div : Nat) (o : Byte) (k : Nat) (i : Byte) (e : Env) :
    waveBits (hwClock div o k i e).wave = lastBits k o := by
  induction k generalizing i e with
  | zero => rfl
  | succ k ih =>
    have hrest := ih (withBit i k e.takeMiso.1) e.takeMiso.2
    simp only [waveBits] at hrest
    simp [hwClock, waveBits, lastBits_succ, hrest]

/-- The two halves of an even divider make a whole one for each bit (R295). -/
theorem hwClock_waveCycles {div : Nat} (hd : div % 2 = 0) (o : Byte) (k : Nat) (i : Byte)
    (e : Env) :
    waveCycles (hwClock div o k i e).wave = k * div := by
  induction k generalizing i e with
  | zero => simp [hwClock, waveCycles]
  | succ k ih =>
    have hrest := ih (withBit i k e.takeMiso.1) e.takeMiso.2
    simp only [waveCycles] at hrest
    have hhalves : div / 2 + div / 2 = div := by omega
    simp only [hwClock, waveCycles, List.map_cons, List.sum_cons, hrest, ← Nat.add_assoc, hhalves]
    ring

/-- Settles O28: the byte and the inputs by `swClock_eq_hwClock`; the software engine's wave is the
hardware engine's with the divider `2 * half`. -/
theorem enginesAreEquivalent : Obligations.EnginesAreEquivalent := by
  unfold Obligations.EnginesAreEquivalent
  intro div half o e
  obtain ⟨hrx, henv⟩ := swClock_eq_hwClock div half o 8 0#8 e
  have hsw : swExchange half o e = hwExchange (2 * half) o e := swClock_eq_hwClock_two_mul ..
  have hbits (d : Nat) : waveBits (hwExchange d o e).wave = msbFirst o := hwClock_waveBits ..
  have hcycles {d : Nat} (hd : d % 2 = 0) : waveCycles (hwExchange d o e).wave = 8 * d :=
    hwClock_waveCycles hd ..
  refine ⟨hrx, henv, hbits div, hsw ▸ hbits (2 * half), hcycles, ?_⟩
  rw [hsw, hcycles (Nat.mul_mod_right 2 half)]
  ring

/-! ### A step before the commit is one primitive (R9) -/

/-- `u` is `s` after one primitive (R9). -/
inductive Primitive (s : State) : State → Prop where
  | setCs (a : Bool) : Primitive s (s.setCs a)
  | busXfer (o : Byte) : Primitive s (s.busXfer o).2
  | busRead12 : Primitive s s.busRead12.2
  | settle : Primitive s s.settle
  | penSample : Primitive s s.penSample.2

/-- `t` has the events and the serial lines of `s`. -/
structure SameLines (s t : State) : Prop where
  hist : t.hist = s.hist
  pins : t.pins = s.pins

/-- The events and the serial lines of `t` are those of `s` after one primitive. -/
def OnePrimitive (s t : State) : Prop :=
  ∃ u, Primitive s u ∧ SameLines u t

theorem OnePrimitive.sameLines {s t u : State} (h : OnePrimitive s t) (k : SameLines t u) :
    OnePrimitive s u := by
  obtain ⟨v, hv, hist, pins⟩ := h
  exact ⟨v, hv, k.hist.trans hist, k.pins.trans pins⟩

theorem State.axisStep_onePrimitive {c : Byte} {p : AxisPos} {s t : State} {n : AxisNext}
    (h : s.axisStep c p = (n, t)) : OnePrimitive s t := by
  obtain rfl : (s.axisStep c p).2 = t := by rw [h]
  cases p with
  | command => exact ⟨_, .busXfer c, rfl, rfl⟩
  | settle => exact ⟨_, .settle, rfl, rfl⟩
  | highByte | lowByte => exact ⟨_, .busXfer 0#8, rfl, rfl⟩
  | read12 => exact ⟨_, .busRead12, rfl, rfl⟩

/-- The computation around the last primitive of a transaction or a check has no part in the events
or the serial lines. -/
def DoneKeepsLines {α : Type} (done : α → State → State) : Prop :=
  ∀ v t, SameLines t (done v t)

section
variable {s t : State}

theorem State.rawStep_onePrimitive {done : Sample → State → State} (hd : DoneKeepsLines done)
    (u : Use) (p : RawPos) (s : State) : OnePrimitive s (s.rawStep u p done) := by
  cases p with
  | csOn => exact ⟨_, .setCs true, rfl, rfl⟩
  | csOff => exact ⟨_, .setCs false, hd _ _⟩
  | x a =>
    simp only [State.rawStep]
    split <;> next h => exact (State.axisStep_onePrimitive h).sameLines ⟨rfl, rfl⟩
  | y a =>
    simp only [State.rawStep]
    split <;> next h => exact (State.axisStep_onePrimitive h).sameLines ⟨rfl, rfl⟩

theorem State.sampleStep_onePrimitive {done : Bool → State → State} (hd : DoneKeepsLines done)
    (u : Use) (p : RawPos) (s : State) : OnePrimitive s (s.sampleStep u p done) :=
  s.rawStep_onePrimitive (fun v t => hd v.valid t) u p

theorem State.penStep_onePrimitive {done : Bool → State → State} (hd : DoneKeepsLines done)
    (s : State) : OnePrimitive s (s.penStep done) :=
  ⟨_, .penSample, hd _ _⟩

theorem discardDone_keepsLines : DoneKeepsLines fun (_ : Sample) t => discardDone t :=
  fun _ _ => ⟨rfl, rfl⟩

theorem sampleDone_keepsLines {done : Sample → State → State} (hd : DoneKeepsLines done) :
    DoneKeepsLines (sampleDone done) := by
  intro v t
  unfold sampleDone
  split
  · exact ⟨rfl, rfl⟩
  · obtain ⟨hist, pins⟩ := hd (t.accumulate v).mean (t.accumulate v)
    exact ⟨hist, pins⟩

theorem measurementDone_keepsLines : DoneKeepsLines measurementDone := fun _ _ => ⟨rfl, rfl⟩

theorem checkDone_keepsLines : DoneKeepsLines checkDone := by
  intro b t
  unfold checkDone
  split_ifs <;> exact ⟨rfl, rfl⟩

theorem isTouchedDone_keepsLines : DoneKeepsLines isTouchedDone := fun _ _ => ⟨rfl, rfl⟩

theorem gateDone_keepsLines : DoneKeepsLines gateDone := fun _ _ => ⟨rfl, rfl⟩

theorem waitDone_keepsLines (target : Bool) : DoneKeepsLines (waitDone target) := by
  intro b t
  unfold waitDone
  dsimp only
  split_ifs <;> exact ⟨rfl, rfl⟩

theorem gatherStep_onePrimitive (hs : gatherStep s = some t) : OnePrimitive s t := by
  unfold gatherStep at hs
  split at hs <;> cases hs
  · exact s.rawStep_onePrimitive discardDone_keepsLines _ _
  · exact s.rawStep_onePrimitive (sampleDone_keepsLines measurementDone_keepsLines) _ _
  · exact s.penStep_onePrimitive checkDone_keepsLines
  · exact s.sampleStep_onePrimitive checkDone_keepsLines _ _

theorem stepWait_onePrimitive {target : Bool} (hne : s.seq.pos ≠ .commit)
    (hs : stepWait target s = some t) : OnePrimitive s t := by
  unfold stepWait at hs
  split at hs <;> cases hs
  · exact s.penStep_onePrimitive (waitDone_keepsLines target)
  · exact s.sampleStep_onePrimitive (waitDone_keepsLines target) _ _
  · next hpos => exact absurd hpos hne

theorem stepReadTouch_onePrimitive (hne : s.seq.pos ≠ .commit) (hs : stepReadTouch s = some t) :
    OnePrimitive s t := by
  unfold stepReadTouch at hs
  split at hs
  · cases hs; exact s.penStep_onePrimitive gateDone_keepsLines
  · cases hs; exact s.sampleStep_onePrimitive gateDone_keepsLines _ _
  · next hpos => exact absurd hpos hne
  iterate 8 (· exact gatherStep_onePrimitive hs)
  all_goals cases hs

theorem stepReadAxis_onePrimitive (hne : s.seq.pos ≠ .commit) (hs : stepReadAxis s = some t) :
    OnePrimitive s t := by
  unfold stepReadAxis at hs
  split at hs
  · split at hs <;> cases hs
    all_goals next h => exact (State.axisStep_onePrimitive h).sameLines ⟨rfl, rfl⟩
  · next hpos => exact absurd hpos hne
  all_goals cases hs

/-- Before its commit every command's step is one primitive (R9). -/
theorem stepOf_onePrimitive {i : Instr} (hne : s.seq.pos ≠ .commit) (hs : stepOf i s = some t) :
    OnePrimitive s t := by
  cases i
  case readTouch => exact stepReadTouch_onePrimitive hne hs
  case waitTouch | waitRelease => exact stepWait_onePrimitive hne hs
  case readAxis => exact stepReadAxis_onePrimitive hne hs
  case gather =>
    simp only [stepOf, stepGather] at hs
    split at hs
    · next hpos => exact absurd hpos hne
    all_goals exact gatherStep_onePrimitive hs
  case isTouched =>
    simp only [stepOf, stepIsTouched] at hs
    split at hs <;> cases hs
    · exact s.penStep_onePrimitive isTouchedDone_keepsLines
    · exact s.sampleStep_onePrimitive isTouchedDone_keepsLines _ _
    · next hpos => exact absurd hpos hne
  case measure =>
    simp only [stepOf, stepMeasure] at hs
    split at hs <;> cases hs
    · exact s.rawStep_onePrimitive discardDone_keepsLines _ _
    · exact s.rawStep_onePrimitive (sampleDone_keepsLines (by intro _ _; exact ⟨rfl, rfl⟩)) _ _
    · next hpos => exact absurd hpos hne
  case readRaw =>
    simp only [stepOf, stepReadRaw] at hs
    split at hs <;> cases hs
    · exact s.rawStep_onePrimitive (by intro _ _; exact ⟨rfl, rfl⟩) _ _
    · next hpos => exact absurd hpos hne
  case csAssert | csDeassert =>
    simp only [stepOf, stepCsAssert, stepCsDeassert] at hs
    split at hs <;> cases hs
    · exact ⟨_, .setCs _, rfl, rfl⟩
    · next hpos => exact absurd hpos hne
  case xferWrite | xferRead =>
    simp only [stepOf, stepXferWrite, stepXferRead] at hs
    split at hs <;> cases hs
    · exact ⟨_, .busXfer _, rfl, rfl⟩
    · next hpos => exact absurd hpos hne
  case nop | init | setCal | setPrec | transform =>
    simp only [stepOf, stepNop, stepInit, stepSetCal, stepSetPrec, stepTransform] at hs
    split at hs <;> cases hs
    next hpos => exact absurd hpos hne

end

/-! ### Chip select (R104, R107) -/

/-- From `s` to `t` chip select changes only with a CS event, and such an event gives its level. -/
structure CsFollowsEvent (s t : State) : Prop where
  changed : t.pins.csN ≠ s.pins.csN → ∃ a, t.hist = s.hist ++ [.cs a]
  level : ∀ a, t.hist = s.hist ++ [.cs a] → t.pins.csN = !a

theorem SameLines.csFollowsEvent {s t : State} (h : SameLines s t) : CsFollowsEvent s t where
  changed := fun hne => absurd (congrArg Pins.csN h.pins) hne
  level := fun a ha => by simp [h.hist] at ha

/-- Of the primitives SetCS alone drives chip select (R104). -/
theorem Primitive.csFollowsEvent {s t : State} (h : Primitive s t) : CsFollowsEvent s t := by
  cases h with
  | setCs a => exact ⟨fun _ => ⟨a, rfl⟩, fun b hb => by simp_all⟩
  | busXfer | busRead12 | settle | penSample => exact ⟨by simp, by simp⟩

theorem OnePrimitive.csFollowsEvent {s t : State} (h : OnePrimitive s t) : CsFollowsEvent s t := by
  obtain ⟨u, hu, hist, pins⟩ := h
  obtain ⟨changed, level⟩ := hu.csFollowsEvent
  exact ⟨by rwa [hist, pins], by rwa [hist, pins]⟩

/-- No commit but INIT's drives a line (R104, R233). -/
theorem commitOf_sameLines {i : Instr} (hi : ∀ arg, i ≠ .init arg) (s : State) :
    SameLines s (commitOf i s) := by
  cases i
  case init arg => exact absurd rfl (hi arg)
  case readTouch =>
    simp only [commitOf, readTouchCommit]
    split <;> exact ⟨rfl, rfl⟩
  all_goals exact ⟨rfl, rfl⟩

/-- A meaning moves chip select by a CS event, or is INIT's commit. -/
theorem exec_csFollowsEvent {i : Instr} {s t : State} (h : exec i s = .next t) :
    CsFollowsEvent s t ∨ (t.hist = s.hist ∧ ∃ arg, s.seq.inFlight = some (.init arg)) := by
  rw [exec_eq_command] at h
  obtain ⟨-, he⟩ | ⟨-, hi, ⟨u, hu, he⟩ | ⟨-, he⟩⟩ | ⟨-, -, he⟩ :=
    s.command_cases i (startPos i s) (stepOf i)
  all_goals rw [he] at h; cases h
  · refine .inl (SameLines.csFollowsEvent ⟨s.submit_hist i _, ?_⟩)
    unfold State.submit
    split <;> rfl
  · by_cases hpos : s.seq.pos = .commit
    · obtain rfl := Option.some.inj (hu.symm.trans (stepOf_commit hpos))
      by_cases hinit : ∃ arg, i = .init arg
      · obtain ⟨arg, rfl⟩ := hinit
        exact .inr ⟨rfl, arg, hi⟩
      · exact .inl (commitOf_sameLines (not_exists.1 hinit) s).csFollowsEvent
    · exact .inl (stepOf_onePrimitive hpos hu).csFollowsEvent
  · exact .inl (SameLines.csFollowsEvent ⟨rfl, rfl⟩)

/-- A host action that is neither a meaning nor a reset records no event and drives no line. -/
theorem State.hostMove_sameLines {s u : State} {a : HostAction} {rest : List HostAction}
    (ha : a ≠ .reset ∧ a ≠ .setRst false) (hm : s.hostMove a rest = .done u) : SameLines s u := by
  have hread (l : List HostAction) (addr : Byte) :
      SameLines s ((s.setScript l).hostRead addr) := by
    obtain ⟨he, -⟩ := readsHaveNoSideEffect (s.setScript l) addr
    rw [he]
    exact ⟨rfl, rfl⟩
  cases a with
  | write addr w =>
    simp only [State.hostMove] at hm
    obtain ⟨-, he⟩ | ⟨-, -, he⟩ | ⟨-, -, ⟨-, he⟩ | ⟨-, i, -, he⟩ | ⟨-, err, -, he⟩⟩ :=
      (s.setScript rest).hostWrite_cases addr w
    all_goals rw [he] at hm; cases hm
    · exact ⟨rfl, rfl⟩
    · rw [State.writeRegister_eq]
      exact ⟨rfl, rfl⟩
    all_goals exact ⟨rfl, rfl⟩
  | read addr => cases hm; exact hread rest addr
  | waitIdle => cases hm; exact hread _ _
  | reset => exact absurd rfl ha.1
  | setRst level =>
    cases level with
    | false => exact absurd rfl ha.2
    | true => cases hm; exact ⟨rfl, rfl⟩

/-- A step that is not a reset moves chip select by a CS event, or is INIT's commit (R107). -/
theorem step_csFollowsEvent {s t : State} (hs : step s = .next t) (hreset : s.nextIsReset = false) :
    CsFollowsEvent s t ∨ (t.hist = s.hist ∧ ∃ arg, s.seq.inFlight = some (.init arg)) := by
  obtain rfl | ⟨e, i, -, -, hrun⟩ | ⟨e, a, rest, hscript, hturn, hdone | ⟨i, -, -, hrun⟩⟩ :=
    step_cases hs
  · exact .inl (SameLines.csFollowsEvent ⟨rfl, rfl⟩)
  · exact (exec_csFollowsEvent hrun).imp_left fun ⟨changed, level⟩ => ⟨changed, level⟩
  · obtain ⟨hist, pins⟩ := State.hostMove_sameLines (s := { s with env := e })
      (not_reset_of_nextIsReset hscript hturn hreset) hdone
    exact .inl (SameLines.csFollowsEvent ⟨hist, pins⟩)
  · exact (exec_csFollowsEvent hrun).imp_left fun ⟨changed, level⟩ => ⟨changed, level⟩

/-- Settles O30: INIT's commit records no event; in any other step chip select follows the event. -/
theorem onlySetCsDrivesChipSelect : Obligations.OnlySetCsDrivesChipSelect := by
  unfold Obligations.OnlySetCsDrivesChipSelect
  intro s t hs hreset
  obtain ⟨changed, level⟩ | ⟨hist, hinit⟩ := step_csFollowsEvent hs hreset
  · exact ⟨fun hne => .inl (changed hne), level⟩
  · exact ⟨fun _ => .inr hinit, fun a ha => by simp [hist] at ha⟩

/-! ### The transport commands (R110–R114) -/

/-- A command that meets no check is accepted (R257). -/
theorem check_eq_none {i : Instr} {s : State} (reinit : isReinit s.cfgLocked i = false)
    (initialised : needsInit i = true → s.status.initDone = true)
    (busFree : isTransaction s.cfg.useIrq i = true → s.status.csHeld = false)
    (legalArg : isBadArg i = false) : check i s = .none := by
  have hinit : (needsInit i && !s.status.initDone) = false := by
    simpa [Bool.and_eq_false_imp] using initialised
  have hbus : (isTransaction s.cfg.useIrq i && s.status.csHeld) = false := by
    simpa [Bool.and_eq_false_imp] using busFree
  simp [check, reinit, hinit, hbus, legalArg]

/-- From the position `commit` one meaning is the commit. -/
theorem exec_commit {i : Instr} {s : State} (hb : s.status.busy = true)
    (hi : s.seq.inFlight = some i) (hpos : s.seq.pos = .commit) :
    exec i s = .next (commitOf i s) :=
  (exec_iff_stepOf hb hi).2 (stepOf_commit hpos)

/-- A command whose one primitive leads to its commit has ended two meanings later. -/
theorem execs_primitive_commit {i : Instr} {s t : State} (hb : s.status.busy = true)
    (hi : s.seq.inFlight = some i) (hs : stepOf i s = some (t.goto .commit))
    (ss : SerialStep s t) : execs i 2 s = .next (commitOf i (t.goto .commit)) := by
  have st := ss.steady
  have hcommit : exec i (t.goto .commit) = .next (commitOf i (t.goto .commit)) :=
    exec_commit (by simp [st.status, hb]) (by simpa [Seq.inFlight, st.op, st.arg] using hi) rfl
  simp only [execs, (exec_iff_stepOf hb hi).2 hs, hcommit]

/-- What an acceptance writes where the command locks and latches nothing (R84). -/
theorem State.accept_eq {i : Instr} {s : State} (hlock : locksCfg i = false)
    (hlatch : ∀ q, latchOperands i s q = q) (p : Pos) :
    s.accept i p = { s with
      status := { s.status with err := .none, busy := true }
      seq := { s.seq with
        op := some i.opcode, arg := i.arg, pos := p, i := 0, j := 0, p := 0 } } := by
  simp [State.accept, hlock, hlatch]

/-- An idle block has BUSY = 0, as a commit leaves it (R33, R86). -/
theorem State.eq_of_idle {s : State} (idle : s.status.busy = false) :
    s = { s with status := { s.status with busy := false } } := by
  rw [← idle]

/-- Settles O15: where CS_HELD changes the primitive is SetCS; else the command only commits. -/
theorem hostFramesATransaction : Obligations.HostFramesATransaction := by
  unfold Obligations.HostFramesATransaction
  intro arg s idle hinit
  have accepted {i : Instr} := exec_of_check_none (i := i) idle
  refine ⟨⟨_, accepted (check_eq_none rfl (fun _ => hinit) nofun rfl), rfl, fun held => ?assert,
      fun held => ?asserted⟩,
    ⟨_, accepted (check_eq_none rfl (fun _ => hinit) nofun rfl), rfl, fun held => ?deassert,
      fun held => ?deasserted⟩⟩
  all_goals rw [State.accept_eq rfl (fun _ => rfl), startPos, held]
  case assert | deassert =>
    rw [execs_primitive_commit rfl rfl rfl (State.setCs_serial _ _)]
    conv_rhs => rw [State.eq_of_idle idle]
    rfl
  case asserted | deasserted =>
    rw [exec_commit rfl rfl rfl]
    simp [commitOf, State.commit, State.noError, Seq.ended, Instr.arg, idle, held]

/-- Settles O16: the primitive is one exchange, and the commit stores the byte it received. -/
theorem transportCommandsExchangeOneByte : Obligations.TransportCommandsExchangeOneByte := by
  unfold Obligations.TransportCommandsExchangeOneByte
  intro b s idle hinit
  have accepted {i : Instr} := exec_of_check_none (i := i) idle
  refine ⟨⟨_, accepted (check_eq_none rfl (fun _ => hinit) nofun rfl), rfl, ?write, rfl⟩,
    ⟨_, _, accepted (check_eq_none rfl (fun _ => hinit) nofun rfl), rfl,
      execs_primitive_commit rfl rfl rfl
        ((State.busXfer_serial 0#8 _).trans (State.keepByte_serial _ _)), ⟨?read, rfl, rfl⟩, rfl⟩⟩
  all_goals rw [State.accept_eq rfl (fun _ => rfl)]
  case write =>
    rw [execs_primitive_commit rfl rfl rfl (State.busXfer_serial b _)]
    conv_rhs => rw [State.eq_of_idle idle]
    rfl
  case read =>
    conv_rhs => rw [State.eq_of_idle idle]
    rfl

end Sys2Proof.Machine
end

section
/-! PROOFS. Statements of 41_sample_decoder.md: the decoded value, the whole `readAxis` and `readRaw`
with their events, and the sequencer's run of the two from acceptance to commit. -/

namespace Sys2Proof.Machine

/-! ### The decoded value (R130, R131) -/

/-- The decoded value is W[14:3], bit by bit (R131). -/
theorem decode16_eq (b1 b2 : Byte) :
    decode16 b1 b2 = b1.extractLsb' 0 7 ++ b2.extractLsb' 3 5 := by
  refine BitVec.eq_of_getLsbD_eq fun j hj => ?_
  rw [BitVec.getLsbD_append]
  interval_cases j <;> simp [decode16, window16]

/-- The bits of the window around the value do not matter (R131). -/
theorem decode16_append (top : Bool) (high : BitVec 7) (mid : BitVec 5) (low : BitVec 3) :
    decode16 (BitVec.ofBool top ++ high) (mid ++ low) = high ++ mid := by
  rw [decode16_eq]
  simp (disch := decide) only [BitVec.extractLsb'_append_eq_of_le,
    BitVec.extractLsb'_append_eq_of_add_le]
  simp

/-- Settles O31: the twelve bits that are read, and that no other bit is. -/
theorem decodedBits : Obligations.DecodedBits := by
  unfold Obligations.DecodedBits
  intro b1 b2
  exact ⟨decode16_eq b1 b2, fun top low => by rw [decode16_append, decode16_eq],
    Nat.le_of_lt_succ (decode16 b1 b2).isLt⟩

/-! ### The bits of a read (R67, R130, R135) -/

/-- The clocked bits determine the value. -/
theorem msbFirst_injective {n : Nat} {v w : BitVec n} (h : msbFirst v = msbFirst w) : v = w := by
  refine BitVec.eq_of_getLsbD_eq fun j hj => ?_
  have hbit := List.map_inj_left.1 h (n - 1 - j) (List.mem_range.2 (by omega))
  rwa [show n - 1 - (n - 1 - j) = j by omega] at hbit

/-- The selected engine takes the next eight bits, most significant first (R102, R103). -/
theorem State.exchange_bits {s : State} {bits later : List Bool} (o : Byte)
    (he : s.env.miso = bits ++ later) (hlen : bits.length = 8) :
    msbFirst (s.exchange o).rx = bits ∧ (s.exchange o).env = { s.env with miso := later } := by
  obtain ⟨hhw, -⟩ := bitsArriveMostSignificantFirst s.build.hwDiv 0 o bits later s.env he
  obtain ⟨hrx, henv, -⟩ := enginesAreEquivalent s.build.hwDiv s.build.swHalf o s.env
  unfold State.exchange
  split
  · exact hhw hlen
  · rw [hrx, henv]
    exact hhw hlen

/-- BusXfer receives the byte whose bits come next. -/
theorem State.busXfer_of_miso {s : State} {b : Byte} {later : List Bool} (o : Byte)
    (he : s.env.miso = msbFirst b ++ later) :
    (s.busXfer o).1 = b ∧ (s.busXfer o).2.env.miso = later := by
  obtain ⟨hrx, henv⟩ := State.exchange_bits o he (by simp [msbFirst])
  exact ⟨msbFirst_injective hrx, by rw [State.busXfer_env, henv]⟩

/-- BusRead12 receives the value whose bits come next. -/
theorem State.busRead12_of_miso {s : State} {v : U12} {later : List Bool}
    (he : s.env.miso = msbFirst v ++ later) : s.busRead12.1 = v :=
  have hbits := bitsArriveMostSignificantFirst 0 s.build.swHalf 0#8 (msbFirst v) later s.env he
  msbFirst_injective (hbits.2 (by simp [msbFirst])).1

/-- The window of R130 around `v`, as two bytes on the wire. -/
theorem window_bits (v : U12) (top l2 l1 l0 : Bool) :
    top :: msbFirst v ++ [l2, l1, l0] =
      msbFirst (BitVec.ofBool top ++ v.extractLsb' 5 7) ++
        msbFirst
          (v.extractLsb' 0 5 ++ (BitVec.ofBool l2 ++ BitVec.ofBool l1 ++ BitVec.ofBool l0)) := by
  simp only [msbFirst, List.range_succ, BitVec.getLsbD_append]
  simp

/-- A value is its seven high bits over its five low ones. -/
theorem high_append_low (v : U12) : v.extractLsb' 5 7 ++ v.extractLsb' 0 5 = v := by
  rw [BitVec.extractLsb'_append_extractLsb'_eq_extractLsb' (show 5 = 0 + 5 from rfl)]
  exact BitVec.extractLsb'_eq_self

/-! ### `readAxis` and `readRaw` as whole functions (R136, R137) -/

/-- `readAxis` in HW mode: three exchanges, the last two decoded. -/
theorem State.readAxisWhole_hw {s : State} (hw : s.status.modeEff = some .hw) (c : Byte) :
    s.readAxisWhole c =
      let s1 := (s.busXfer c).2.settle
      let s2 := (s1.busXfer 0#8).2
      (decode16 (s1.busXfer 0#8).1 (s2.busXfer 0#8).1, (s2.busXfer 0#8).2) := by
  simp only [State.readAxisWhole, if_pos hw]

/-- `readAxis` in SW mode: one exchange and one 12-bit read. -/
theorem State.readAxisWhole_sw {s : State} (sw : s.status.modeEff ≠ some .hw) (c : Byte) :
    s.readAxisWhole c = (s.busXfer c).2.settle.busRead12 := by
  simp only [State.readAxisWhole, if_neg sw]

/-- `readAxis` changes the serial side alone, and leaves chip select (R136). -/
theorem State.readAxisWhole_serial (c : Byte) (s : State) :
    SerialStep s (s.readAxisWhole c).2 ∧ (s.readAxisWhole c).2.pins.csN = s.pins.csN := by
  have hsettled := (s.busXfer_serial c).trans (s.busXfer c).2.settle_serial
  by_cases hw : s.status.modeEff = some .hw
  · rw [State.readAxisWhole_hw hw]
    exact ⟨(hsettled.trans (State.busXfer_serial 0#8 _)).trans (State.busXfer_serial 0#8 _), rfl⟩
  · rw [State.readAxisWhole_sw hw]
    exact ⟨hsettled.trans (State.busRead12_serial _), rfl⟩

/-- `readRaw` changes the serial side alone (R137). -/
theorem State.readRawWhole_serial (s : State) : SerialStep s s.readRawWhole.2 :=
  (((s.setCs_serial true).trans (State.readAxisWhole_serial _ _).1).trans
    (State.readAxisWhole_serial _ _).1).trans (State.setCs_serial false _)

/-- Settles O32: each mode takes the echo, then the bits of the value. -/
theorem readPathsAgree : Obligations.ReadPathsAgree := by
  unfold Obligations.ReadPathsAgree
  intro c v echo later top l2 l1 l0 s hecho
  refine ⟨fun hw hmiso => ?hardware, fun sw hmiso => ?software⟩
  case hardware =>
    rw [List.append_assoc, window_bits, List.append_assoc] at hmiso
    obtain ⟨-, henv⟩ := State.exchange_bits c hmiso hecho
    obtain ⟨hhigh, hnext⟩ := State.busXfer_of_miso (s := (s.busXfer c).2.settle) 0#8
      (congrArg Env.miso henv)
    obtain ⟨hlow, -⟩ := State.busXfer_of_miso 0#8 hnext
    simp only [State.readAxisWhole_hw hw, hhigh, hlow]
    exact (decode16_append top _ _ _).trans (high_append_low v)
  case software =>
    rw [List.append_assoc] at hmiso
    obtain ⟨-, henv⟩ := State.exchange_bits c hmiso hecho
    rw [State.readAxisWhole_sw (by simp [sw])]
    exact State.busRead12_of_miso (congrArg Env.miso henv)

/-- The events of `readAxis` in HW mode, and the value they give. -/
theorem State.readAxisWhole_events_hw {s : State} (hw : s.status.modeEff = some .hw) (c : Byte) :
    ∃ e b1 b2 : Byte,
      (s.readAxisWhole c).2.hist = s.hist ++ [.xfer c e, .delay, .xfer 0#8 b1, .xfer 0#8 b2] ∧
        (s.readAxisWhole c).1 = decode16 b1 b2 := by
  rw [State.readAxisWhole_hw hw]
  refine ⟨(s.busXfer c).1, _, _, ?_, rfl⟩
  simp

/-- The events of `readAxis` in SW mode, and the value they give. -/
theorem State.readAxisWhole_events_sw {s : State} (sw : s.status.modeEff ≠ some .hw) (c : Byte) :
    ∃ (e : Byte) (v : U12),
      (s.readAxisWhole c).2.hist = s.hist ++ [.xfer c e, .delay, .read12 v] ∧
        (s.readAxisWhole c).1 = v := by
  rw [State.readAxisWhole_sw sw]
  refine ⟨(s.busXfer c).1, _, ?_, rfl⟩
  simp

/-- Settles O33: the events of the two axes between the two SetCS. -/
theorem rawTransactionEvents : Obligations.RawTransactionEvents := by
  unfold Obligations.RawTransactionEvents
  intro s
  have hmode : ((s.setCs true).readAxisWhole s.build.cmdX).2.status.modeEff = s.status.modeEff :=
    congrArg Status.modeEff (State.readAxisWhole_serial _ _).1.steady.status
  refine ⟨fun hw => ?hardware, fun sw => ?software⟩
  case hardware =>
    obtain ⟨e1, b1, b2, hx, hvx⟩ :=
      State.readAxisWhole_events_hw (s := s.setCs true) hw s.build.cmdX
    obtain ⟨e2, b3, b4, hy, hvy⟩ := State.readAxisWhole_events_hw (hmode.trans hw) s.build.cmdY
    exact ⟨e1, b1, b2, e2, b3, b4, by simp [State.readRawWhole, hx, hy],
      by simp only [State.readRawWhole, hvx, hvy]⟩
  case software =>
    have hne : s.status.modeEff ≠ some .hw := by simp [sw]
    obtain ⟨e1, x, hx, hvx⟩ :=
      State.readAxisWhole_events_sw (s := s.setCs true) hne s.build.cmdX
    obtain ⟨e2, y, hy, hvy⟩ :=
      State.readAxisWhole_events_sw (fun h => hne (hmode.symm.trans h)) s.build.cmdY
    exact ⟨e1, e2, x, y, by simp [State.readRawWhole, hx, hy],
      by simp only [State.readRawWhole, hvx, hvy]⟩

/-! ### A command in flight and the state it works on -/

/-- `s` with a command in flight, whose sequencer registers are `q`: what an acceptance and the steps
before a commit make of the state that the pseudocode works on (R84). -/
def State.during (q : Seq) (s : State) : State :=
  { s with status := { s.status with busy := true }, seq := q }

/-- The sequencer at the position `p` of the command in flight, with the partial results `r`. -/
def Seq.moveTo (p : Pos) (r : Results) (q : Seq) : Seq :=
  { q with pos := p, res := r }

/-- The sequencer's registers with the command `i` just accepted, nothing latched (R84). -/
def Seq.started (i : Instr) (q : Seq) : Seq :=
  { q with op := some i.opcode, arg := i.arg, i := 0, j := 0, p := 0 }

theorem Seq.started_inFlight (i : Instr) (q : Seq) : (q.started i).inFlight = some i := by
  simp [Seq.inFlight, Seq.started]

/-- A command that meets no check, and locks and latches nothing, is accepted: ERR is cleared and the
sequencer stands at its first step (R84). -/
theorem exec_started {i : Instr} {s : State} (idle : s.status.busy = false)
    (hcheck : check i s = .none) (hlock : locksCfg i = false)
    (hlatch : ∀ q, latchOperands i s q = q) :
    exec i s = .next (s.noError.during ((s.seq.started i).moveTo (startPos i s) s.seq.res)) := by
  rw [exec_of_check_none idle hcheck, State.accept_eq hlock hlatch]
  rfl

/-- A commit leaves the state that the pseudocode has worked on (R86). -/
theorem State.commit_during_endsAs {w : State} {code : ErrCode} (idle : w.status.busy = false)
    (herr : w.status.err = code) (q : Seq) : ((w.during q).commit code).EndsAs w where
  same := by
    rw [State.withoutSequencer, State.withoutSequencer, ← herr]
    conv_rhs => rw [State.eq_of_idle idle]
    rfl
  idle := ⟨rfl, rfl⟩

/-- Meanings of one command one after another. -/
theorem execs_add {i : Instr} {m : Nat} {s t : State} (h : execs i m s = .next t) (n : Nat) :
    execs i (m + n) s = execs i n t := by
  induction m generalizing s with
  | zero => cases h; rw [Nat.zero_add]
  | succ m ih =>
    rw [Nat.succ_add]
    simp only [execs] at h ⊢
    split at h
    · next u hu => exact ih h
    all_goals cases h

/-- The first of several meanings is the step of the command in flight. -/
theorem execs_succ_during {i : Instr} {q : Seq} {p : Pos} {r : Results} {w t : State}
    (hi : q.inFlight = some i) (hs : stepOf i (w.during (q.moveTo p r)) = some t) (n : Nat) :
    execs i (n + 1) (w.during (q.moveTo p r)) = execs i n t := by
  rw [execs, (exec_iff_stepOf rfl hi).2 hs]

/-! ### The sequencer's `readAxis` -/

/-- How a command runs `readAxis`: the byte it sends, where the sequencer stands meanwhile, where it
keeps the value, and where it goes on. -/
structure AxisCall where
  command : Byte
  place : AxisPos → Pos
  keep : U12 → Results → Results
  dest : Pos

/-- One primitive of `readAxis` run for the call `a`. -/
def State.callStep (a : AxisCall) (p : AxisPos) (s : State) : State :=
  match s.axisStep a.command p with
  | (.step q, t) => t.goto (a.place q)
  | (.value v, t) => (t.keep (a.keep v)).goto a.dest

section
variable (a : AxisCall) (p : Pos) (r : Results) (q : Seq) (w : State)

theorem State.callStep_command : (w.during (q.moveTo p r)).callStep a .command =
    (w.busXfer a.command).2.during (q.moveTo (a.place .settle) r) := rfl

theorem State.callStep_settle : (w.during (q.moveTo p r)).callStep a .settle =
    w.settle.during (q.moveTo
      (a.place (if w.status.modeEff = some .hw then .highByte else .read12)) r) := rfl

theorem State.callStep_highByte : (w.during (q.moveTo p r)).callStep a .highByte =
    (w.busXfer 0#8).2.during
      (q.moveTo (a.place .lowByte) { r with byte := (w.busXfer 0#8).1 }) := rfl

theorem State.callStep_lowByte : (w.during (q.moveTo p r)).callStep a .lowByte =
    (w.busXfer 0#8).2.during
      (q.moveTo a.dest (a.keep (decode16 r.byte (w.busXfer 0#8).1) r)) := rfl

theorem State.callStep_read12 : (w.during (q.moveTo p r)).callStep a .read12 =
    w.busRead12.2.during (q.moveTo a.dest (a.keep w.busRead12.1 r)) := rfl

end

/-- At the places of the call `a` a step of `i`, in flight with the argument of `q` in the build `b`,
is that primitive of the call. -/
def RunsCall (i : Instr) (a : AxisCall) (q : Seq) (b : Params) : Prop :=
  ∀ p t, t.seq.pos = a.place p → t.seq.arg = q.arg → t.build = b →
    stepOf i t = some (t.callStep a p)

/-- The steps of a call end where the whole `readAxis` ends, with the value kept (R136). -/
theorem execs_call {i : Instr} {a : AxisCall} {q : Seq} {s : State} (hi : q.inFlight = some i)
    (hrun : RunsCall i a q s.build) (r : Results) :
    ∃ b, execs i (axisSteps s.status.modeEff) (s.during (q.moveTo (a.place .command) r)) =
      .next ((s.readAxisWhole a.command).2.during
        (q.moveTo a.dest (a.keep (s.readAxisWhole a.command).1 { r with byte := b }))) := by
  have hstep (n : Nat) (w : State) (p : AxisPos) (r : Results) (hw : w.build = s.build) :
      execs i (n + 1) (w.during (q.moveTo (a.place p) r)) =
        execs i n ((w.during (q.moveTo (a.place p) r)).callStep a p) :=
    execs_succ_during hi (hrun p _ rfl rfl hw) n
  by_cases hw : s.status.modeEff = some .hw
  · refine ⟨((s.busXfer a.command).2.settle.busXfer 0#8).1, ?_⟩
    rw [axisSteps, if_pos hw, hstep 3, State.callStep_command, hstep 2, State.callStep_settle,
      State.busXfer_status, if_pos hw, hstep 1, State.callStep_highByte, hstep 0,
      State.callStep_lowByte, State.readAxisWhole_hw hw, execs] <;> rfl
  · refine ⟨r.byte, ?_⟩
    rw [axisSteps, if_neg hw, hstep 2, State.callStep_command, hstep 1, State.callStep_settle,
      State.busXfer_status, if_neg hw, hstep 0, State.callStep_read12, State.readAxisWhole_sw hw,
      execs] <;> rfl

/-- The call of READ_AXIS (R138). -/
def readAxisCall (c : Byte) : AxisCall where
  command := c
  place := .axis
  keep v r := { r with axis := v }
  dest := .commit

theorem stepReadAxis_axis {p : AxisPos} {s : State} (hpos : s.seq.pos = .axis p) :
    stepReadAxis s = some (s.callStep (readAxisCall s.seq.arg) p) := by
  rcases hstep : s.axisStep s.seq.arg p with ⟨_ | _, t⟩ <;>
    simp only [stepReadAxis, hpos, State.callStep, readAxisCall, hstep]

/-- Settles O17: the call whose value the commit stores. -/
theorem readAxisRunsItsPseudocode : Obligations.ReadAxisRunsItsPseudocode := by
  unfold Obligations.ReadAxisRunsItsPseudocode
  intro c s idle hinit
  have hi := s.seq.started_inFlight (.readAxis c)
  have haccept := exec_started (i := .readAxis c) idle
    (check_eq_none rfl (fun _ => hinit) nofun rfl) rfl fun _ => rfl
  obtain ⟨b, haxis⟩ := execs_call (a := readAxisCall c) (s := s.noError) hi
    (fun p t hpos harg _ => (stepReadAxis_axis hpos).trans (by rw [harg]; rfl)) s.seq.res
  obtain ⟨hserial, hcs⟩ := s.noError.readAxisWhole_serial c
  have hstatus := hserial.steady.status
  have hxfer : (s.noError.readAxisWhole c).2.xfer = s.xfer :=
    (congrArg State.xfer hserial.frame :)
  refine ⟨_, _, haccept, rfl,
    (execs_add haxis 1).trans (execs_succ_during hi (stepOf_commit rfl) 0), ?_, hcs⟩
  rw [← hxfer]
  exact State.commit_during_endsAs (w := { (s.noError.readAxisWhole c).2 with
      xfer := { (s.noError.readAxisWhole c).2.xfer with axis := (s.noError.readAxisWhole c).1 } })
    ((congrArg Status.busy hstatus).trans idle) (congrArg Status.err hstatus) _

/-! ### The sequencer's `readRaw` -/

/-- The call for the x axis of a transaction for the use `u` (R137). -/
def xCall (b : Params) (u : Use) : AxisCall where
  command := b.cmdX
  place p := .raw u (.x p)
  keep v r := { r with x := v }
  dest := .raw u (.y .command)

/-- The call for the y axis (R137). -/
def yCall (b : Params) (u : Use) : AxisCall where
  command := b.cmdY
  place p := .raw u (.y p)
  keep v r := { r with y := v }
  dest := .raw u .csOff

theorem State.rawStep_x (u : Use) (p : AxisPos) (done : Sample → State → State) (s : State) :
    s.rawStep u (.x p) done = s.callStep (xCall s.build u) p := by
  rcases hstep : s.axisStep s.build.cmdX p with ⟨_ | _, t⟩ <;>
    simp only [State.rawStep, State.callStep, xCall, hstep]

theorem State.rawStep_y (u : Use) (p : AxisPos) (done : Sample → State → State) (s : State) :
    s.rawStep u (.y p) done = s.callStep (yCall s.build u) p := by
  rcases hstep : s.axisStep s.build.cmdY p with ⟨_ | _, t⟩ <;>
    simp only [State.rawStep, State.callStep, yCall, hstep]

/-- One transaction is two `readAxis` between two SetCS (R137, R140). -/
theorem rawSteps_eq (mode : Option TransportMode) :
    rawSteps mode = axisSteps mode + (axisSteps mode + 1) + 1 := by
  unfold rawSteps axisSteps
  split <;> rfl

/-- The steps of a transaction that `i` runs for the use `u` end where the whole `readRaw` ends, its
sample handed to `done` (R137). -/
theorem execs_raw {i : Instr} {u : Use} {done : Sample → State → State} {q : Seq}
    (hi : q.inFlight = some i)
    (hrun : ∀ p t, t.seq.pos = .raw u p → stepOf i t = some (t.rawStep u p done))
    (r : Results) (s : State) :
    ∃ b, execs i (rawSteps s.status.modeEff) (s.during (q.moveTo (.raw u .csOn) r)) =
      .next (done s.readRawWhole.1 (s.readRawWhole.2.during (q.moveTo (.raw u .csOff)
        { r with byte := b, x := s.readRawWhole.1.x, y := s.readRawWhole.1.y }))) := by
  have hstep (n : Nat) (w : State) (p : RawPos) (r : Results) :
      execs i (n + 1) (w.during (q.moveTo (.raw u p) r)) =
        execs i n ((w.during (q.moveTo (.raw u p) r)).rawStep u p done) :=
    execs_succ_during hi (hrun p _ rfl) n
  have st := ((s.setCs true).readAxisWhole_serial s.build.cmdX).1.steady
  have hrunX : RunsCall i (xCall s.build u) q (s.setCs true).build := fun p t hpos _ hb => by
    rw [hrun _ t hpos, State.rawStep_x, hb]; rfl
  have hrunY : RunsCall i (yCall s.build u) q ((s.setCs true).readAxisWhole s.build.cmdX).2.build :=
    fun p t hpos _ hb => by rw [hrun _ t hpos, State.rawStep_y, hb, st.build]; rfl
  obtain ⟨bx, hx⟩ := execs_call hi hrunX r
  obtain ⟨b, hy⟩ := execs_call hi hrunY
    ((xCall s.build u).keep ((s.setCs true).readAxisWhole s.build.cmdX).1 { r with byte := bx })
  rw [st.status] at hy
  refine ⟨b, ?_⟩
  rw [rawSteps_eq, hstep]
  refine (execs_add hx _).trans ((execs_add hy _).trans ?_)
  rw [show (yCall s.build u).dest = .raw u .csOff from rfl, hstep]
  rfl

/-- Settles O18: one transaction for the result, and the commit. -/
theorem readRawRunsItsPseudocode : Obligations.ReadRawRunsItsPseudocode := by
  unfold Obligations.ReadRawRunsItsPseudocode
  intro arg s idle hinit hfree
  have hi := s.seq.started_inFlight (.readRaw arg)
  have haccept := exec_started (i := .readRaw arg) idle
    (check_eq_none rfl (fun _ => hinit) (fun _ => hfree) rfl) rfl fun _ => rfl
  obtain ⟨b, hraw⟩ := execs_raw (u := .result) (done := fun _ t => t.goto .commit) hi
    (fun p t hpos => by simp [stepOf, stepReadRaw, hpos]) s.seq.res s.noError
  have hstatus := s.noError.readRawWhole_serial.steady.status
  exact ⟨_, _, haccept, rfl,
    (execs_add hraw 1).trans (execs_succ_during hi (stepOf_commit rfl) 0),
    State.commit_during_endsAs
      (w := { s.noError.readRawWhole.2 with raw := s.noError.readRawWhole.1 })
      ((congrArg Status.busy hstatus).trans idle) (congrArg Status.err hstatus) _⟩

end Sys2Proof.Machine
end

section
/-! PROOFS. Statements of 42_presence.md: the range comparator, the sequencer's run of one presence
check, and the polls of `waitFor` from acceptance to commit. -/

namespace Sys2Proof.Machine

/-! ### The range comparator (R150, R151, R153) -/

/-- A value is valid exactly strictly between the rails (R150). -/
theorem isSampleValid_iff (v : U12) : isSampleValid v = true ↔ v ≠ 0#12 ∧ v ≠ 4095#12 := by
  have hlt := v.isLt
  simp only [isSampleValid, Bool.and_eq_true, decide_eq_true_eq, ne_eq, ← BitVec.toNat_inj,
    BitVec.toNat_ofNat]
  omega

/-- Settles O34: both axes of a sample are valid. -/
theorem validExactlyBetweenTheRails : Obligations.ValidExactlyBetweenTheRails := by
  unfold Obligations.ValidExactlyBetweenTheRails
  refine ⟨isSampleValid_iff, fun v => ?_⟩
  rw [Sample.valid, Bool.and_eq_true, isSampleValid_iff, isSampleValid_iff, and_assoc]

/-! ### `touched()` as a whole function (R152–R154) -/

/-- With the pen line a presence check is one PenSample (R152). -/
theorem State.touchedWhole_pen {s : State} (hirq : s.cfg.useIrq = true) :
    s.touchedWhole = (!s.penSample.1, s.penSample.2) := by
  rw [State.touchedWhole, if_pos hirq, State.touchedIrqWhole]

/-- Without the pen line a presence check is one transaction, its sample compared (R153). -/
theorem State.touchedWhole_sample {s : State} (hirq : s.cfg.useIrq = false) :
    s.touchedWhole = (s.readRawWhole.1.valid, s.readRawWhole.2) := by
  rw [State.touchedWhole, if_neg (by simp [hirq]), State.touchedSampleWhole]

/-- A presence check changes the serial side alone (R154). -/
theorem State.touchedWhole_serial (s : State) : SerialStep s s.touchedWhole.2 := by
  cases hirq : s.cfg.useIrq with
  | true => rw [State.touchedWhole_pen hirq]; exact s.penSample_serial
  | false => rw [State.touchedWhole_sample hirq]; exact s.readRawWhole_serial

/-- A presence check takes as many steps in every state of one configuration and mode (R154). -/
theorem Steady.checkSteps {s t : State} (st : Steady s t) : t.checkSteps = s.checkSteps := by
  rw [State.checkSteps, State.checkSteps, st.cfg, st.status]

/-! ### The sequencer's presence check -/

/-- In the presence check for the use `u` each step of `i` is one of `touched()`, whose answer goes
to `done` (R154). -/
structure RunsCheck (i : Instr) (u : Use) (done : Bool → State → State) : Prop where
  pen : ∀ t, t.seq.pos = .pen u → stepOf i t = some (t.penStep done)
  sample : ∀ p t, t.seq.pos = .raw u p → stepOf i t = some (t.sampleStep u p done)

/-- The steps of a presence check that `i` runs for the use `u` end where the whole `touched()`
ends, its answer handed to `done`; a check of a sample leaves the sample in the partial results. -/
theorem execs_check {i : Instr} {u : Use} {done : Bool → State → State} {q : Seq}
    (hi : q.inFlight = some i) (hrun : RunsCheck i u done) (r : Results) (s : State) :
    ∃ p r', (s.cfg.useIrq = false → (⟨r'.x, r'.y⟩ : Sample) = s.readRawWhole.1) ∧
      execs i s.checkSteps (s.during (q.moveTo (s.touchedPos u) r)) =
        .next (done s.touchedWhole.1 (s.touchedWhole.2.during (q.moveTo p r'))) := by
  cases hirq : s.cfg.useIrq with
  | true =>
    refine ⟨.pen u, r, nofun, ?_⟩
    rw [State.checkSteps, checkSteps, State.touchedPos, if_pos hirq, if_pos hirq,
      execs_succ_during hi (hrun.pen _ rfl) 0, State.touchedWhole_pen hirq]
    rfl
  | false =>
    obtain ⟨b, hraw⟩ := execs_raw hi (done := fun v => done v.valid) hrun.sample r s
    rw [State.checkSteps, checkSteps, State.touchedPos, if_neg (by simp [hirq]),
      if_neg (by simp [hirq]), State.touchedWhole_sample hirq]
    exact ⟨_, _, fun _ => rfl, hraw⟩

/-- A presence command meets no check when INIT is done and the bus, where it needs it, is free
(R253, R254). -/
theorem check_presence_eq_none {i : Instr} {s : State} (reinit : isReinit s.cfgLocked i = false)
    (hinit : s.status.initDone = true) (htrans : isTransaction s.cfg.useIrq i = !s.cfg.useIrq)
    (hfree : s.cfg.useIrq = false → s.status.csHeld = false) (legalArg : isBadArg i = false) :
    check i s = .none :=
  check_eq_none reinit (fun _ => hinit) (fun h => hfree (by simpa [htrans] using h)) legalArg

/-! ### IS_TOUCHED (R156) -/

theorem isTouched_runsCheck (arg : Byte) : RunsCheck (.isTouched arg) .check isTouchedDone where
  pen t hpos := by simp [stepOf, stepIsTouched, hpos]
  sample p t hpos := by simp [stepOf, stepIsTouched, hpos]

/-- IS_TOUCHED's commit after a check that was run in `s` (R156). -/
theorem isTouchedCommit_endsAs {s w : State} (hserial : SerialStep s w)
    (idle : s.status.busy = false) (q : Seq) :
    (isTouchedCommit (w.during q)).EndsAs { w with
      status := { s.status with err := .none, touching := q.res.touched }
      raw := if s.cfg.useIrq then s.raw else ⟨q.res.x, q.res.y⟩ } := by
  have st := hserial.steady
  have hraw : w.raw = s.raw := (congrArg State.raw hserial.frame :)
  rw [← st.status] at idle
  rw [← st.status, ← st.cfg, ← hraw]
  exact State.commit_during_endsAs (w := { w with
    status := { w.status with err := .none, touching := q.res.touched }
    raw := if w.cfg.useIrq then w.raw else ⟨q.res.x, q.res.y⟩ }) idle rfl q

/-- Settles O19: one presence check, whose answer and sample the commit stores. -/
theorem isTouchedRunsItsPseudocode : Obligations.IsTouchedRunsItsPseudocode := by
  unfold Obligations.IsTouchedRunsItsPseudocode
  intro arg s idle hinit hfree
  have hi := s.seq.started_inFlight (.isTouched arg)
  have haccept := exec_started (i := .isTouched arg) idle
    (check_presence_eq_none rfl hinit rfl hfree rfl) rfl fun _ => rfl
  obtain ⟨p, r, hsample, hcheck⟩ :=
    execs_check hi (isTouched_runsCheck arg) s.seq.res s.noError
  have hstored : (if s.cfg.useIrq then s.raw else s.noError.readRawWhole.1) =
      if s.cfg.useIrq then s.raw else ⟨r.x, r.y⟩ :=
    ite_congr rfl (fun _ => rfl) fun hirq => (hsample (Bool.eq_false_of_not_eq_true hirq)).symm
  refine ⟨_, _, haccept, rfl,
    (execs_add hcheck 1).trans (execs_succ_during hi (stepOf_commit rfl) 0), ?_⟩
  rw [hstored]
  exact isTouchedCommit_endsAs s.noError.touchedWhole_serial idle _

/-! ### The polls of a wait (R157) -/

/-- The command that runs `waitFor(target)` (R158, R160). -/
def waitCommand (arg : Byte) : (target : Bool) → Instr
  | true => .waitTouch arg
  | false => .waitRelease arg

theorem eq_waitCommand {i : Instr} {arg : Byte} {target : Bool}
    (h : i = .waitTouch arg ∧ target = true ∨ i = .waitRelease arg ∧ target = false) :
    i = waitCommand arg target := by
  obtain ⟨rfl, rfl⟩ | ⟨rfl, rfl⟩ := h <;> rfl

/-- The sequencer's registers with the wait `i` just accepted, its bound latched (R84, R157). -/
def Seq.waiting (i : Instr) (limit : Word) (q : Seq) : Seq :=
  { q.started i with limit := limit }

/-- The sequencer's registers of a wait after one poll more. -/
def Seq.polled (q : Seq) : Seq :=
  { q with p := q.p + 1 }

section
variable (arg : Byte) (target : Bool)

/-- A wait is accepted with its bound latched, before its first poll (R84, R158, R160). -/
theorem exec_wait {s : State} (idle : s.status.busy = false) (hinit : s.status.initDone = true)
    (hfree : s.cfg.useIrq = false → s.status.csHeld = false) :
    exec (waitCommand arg target) s = .next (s.noError.during
      ((s.seq.waiting (waitCommand arg target) s.waitLimit).moveTo (s.touchedPos .check)
        s.seq.res)) := by
  have accepted : check (waitCommand arg target) s = .none := by
    cases target <;> exact check_presence_eq_none rfl hinit rfl hfree rfl
  rw [exec_of_check_none idle accepted]
  cases target <;>
    simp [waitCommand, State.accept, locksCfg, latchOperands, startPos, State.during,
      State.noError, Seq.waiting, Seq.started, Seq.moveTo]

theorem waitCommand_runsCheck :
    RunsCheck (waitCommand arg target) .check (waitDone target) where
  pen t hpos := by cases target <;> simp [waitCommand, stepOf, stepWait, hpos]
  sample p t hpos := by cases target <;> simp [waitCommand, stepOf, stepWait, hpos]

theorem commitOf_waitCommand (s : State) : commitOf (waitCommand arg target) s = waitCommit s := by
  cases target <;> rfl

end

/-- What follows a poll that answers `b` after `p` others, with the bound `limit` (R157): the wait
ends, and the value tells whether the bound ran out, or it polls again. -/
def afterPoll (target b : Bool) (limit p : Nat) : Option Bool :=
  if b = target then some false
  else if limit ≠ 0 ∧ p + 1 = limit then some true
  else none

theorem afterPoll_eq_some {target b v : Bool} {limit p : Nat}
    (h : afterPoll target b limit p = some v) : v = (b != target) := by
  unfold afterPoll at h
  split at h
  · next hb => simpa [hb] using h.symm
  · next hb =>
    split at h <;> cases h
    simpa using hb

theorem afterPoll_eq_none_iff {target b : Bool} {limit p : Nat} :
    afterPoll target b limit p = none ↔ b ≠ target ∧ ¬ (limit ≠ 0 ∧ p + 1 = limit) := by
  unfold afterPoll
  split_ifs <;> simp [*]

/-- The sequencer goes from a poll to the commit, or to the next poll (R157). -/
theorem waitDone_during (target b : Bool) (q : Seq) (p : Pos) (r : Results) (w : State) :
    waitDone target b (w.during (q.moveTo p r)) =
      match afterPoll target b q.limit.toNat q.p with
      | some v => w.during (q.polled.moveTo .commit { r with touched := b, timedOut := v })
      | none => w.during (q.polled.moveTo (w.touchedPos .check) r) := by
  have hzero : q.limit ≠ 0#32 ↔ q.limit.toNat ≠ 0 := by simp [← BitVec.toNat_inj]
  have hbound : q.limit ≠ 0#32 ∧ q.p + 1 = q.limit.toNat ↔
      q.limit.toNat ≠ 0 ∧ q.p + 1 = q.limit.toNat := and_congr_left' hzero
  unfold waitDone afterPoll
  by_cases hb : b = target
  · rw [if_pos hb, if_pos hb]
    rfl
  · rw [if_neg hb, if_neg hb]
    by_cases hlimit : q.limit.toNat ≠ 0 ∧ q.p + 1 = q.limit.toNat
    · rw [if_pos hlimit]
      exact if_pos (hbound.2 hlimit)
    · rw [if_neg hlimit]
      exact if_neg (mt hbound.1 hlimit)

/-- `waitFor` goes from a poll to its end, or to the next poll (R157). -/
theorem State.waitWhole_succ (target : Bool) (limit fuel p : Nat) (s : State) :
    State.waitWhole target limit (fuel + 1) p s =
      match afterPoll target s.touchedWhole.1 limit p with
      | some v => some (s.touchedWhole.1, v, s.touchedWhole.2)
      | none => State.waitWhole target limit fuel (p + 1) s.touchedWhole.2 := by
  unfold afterPoll
  simp only [State.waitWhole]
  split_ifs <;> rfl

/-- What a wait accepted in `s` commits where `waitFor` has answered `x`, the last poll's result and
whether the bound ran out (R157, R159). -/
def State.waited (x : Bool × Bool × State) (s : State) : State :=
  { x.2.2 with
    status := { s.status with err := if x.2.1 then .timeout else .none, touching := x.1 } }

/-- A wait's commit after polls that were run in `s` (R157, R159). -/
theorem waitCommit_endsAs {s w : State} (hstatus : w.status = s.status)
    (idle : s.status.busy = false) (q : Seq) :
    (waitCommit (w.during q)).EndsAs (s.waited (q.res.touched, q.res.timedOut, w)) := by
  rw [State.waited, ← hstatus]
  rw [← hstatus] at idle
  exact State.commit_during_endsAs (w := w.waited (q.res.touched, q.res.timedOut, w)) idle rfl q

/-- The polls of a wait and its commit end where the whole `waitFor` ends: at most `fuel` presence
checks and one step (R157). -/
theorem execs_wait {arg : Byte} {target : Bool} {fuel : Nat} {q : Seq} {s : State}
    {x : Bool × Bool × State} (hi : q.inFlight = some (waitCommand arg target))
    (idle : s.status.busy = false)
    (hx : State.waitWhole target q.limit.toNat fuel q.p s = some x) (r : Results) :
    ∃ n ≤ fuel * s.checkSteps + 1, ∃ u,
      execs (waitCommand arg target) n (s.during (q.moveTo (s.touchedPos .check) r)) = .next u ∧
        u.EndsAs (s.waited x) := by
  induction fuel generalizing q r s with
  | zero => cases hx
  | succ fuel ih =>
    have st := s.touchedWhole_serial.steady
    obtain ⟨p, r', -, hpoll⟩ := execs_check hi (waitCommand_runsCheck arg target) r s
    rw [waitDone_during] at hpoll
    rw [State.waitWhole_succ] at hx
    cases hv : afterPoll target s.touchedWhole.1 q.limit.toNat q.p with
    | some v =>
      simp only [hv] at hpoll hx
      cases hx
      refine ⟨s.checkSteps + 1, by rw [Nat.succ_mul]; omega, _,
        (execs_add hpoll 1).trans (execs_succ_during (q := q.polled) hi (stepOf_commit rfl) 0), ?_⟩
      rw [commitOf_waitCommand]
      exact waitCommit_endsAs st.status idle _
    | none =>
      simp only [hv] at hpoll hx
      obtain ⟨n, hn, u, hu, hends⟩ := ih (q := q.polled) hi (st.status ▸ idle) hx r'
      rw [st.checkSteps] at hn
      rw [State.waited, st.status] at hends
      exact ⟨s.checkSteps + n, by rw [Nat.succ_mul]; omega, u, (execs_add hpoll n).trans hu, hends⟩

/-- A wait from its acceptance on: a `waitFor` that ends is what it runs (R157, R158, R160). -/
theorem wait_endsAs_waited {i : Instr} {arg : Byte} {target : Bool} {s : State}
    (hwait : i = .waitTouch arg ∧ target = true ∨ i = .waitRelease arg ∧ target = false)
    (idle : s.status.busy = false) (hinit : s.status.initDone = true)
    (hfree : s.cfg.useIrq = false → s.status.csHeld = false) :
    ∃ t, exec i s = .next t ∧ t.status.busy = true ∧
      ∀ fuel x, State.waitWhole target s.waitLimit.toNat fuel 0 s.noError = some x →
        ∃ n ≤ fuel * s.checkSteps + 1, ∃ u, execs i n t = .next u ∧
          u.EndsAs (s.waited x) := by
  obtain rfl := eq_waitCommand hwait
  exact ⟨_, exec_wait arg target idle hinit hfree, rfl, fun fuel x hx =>
    execs_wait (q := s.seq.waiting _ s.waitLimit) (s := s.noError) (s.seq.started_inFlight _) idle
      hx _⟩

/-- Settles O23: the wait runs the polls of `waitFor` and commits its answer. -/
theorem waitsRunTheirPseudocode : Obligations.WaitsRunTheirPseudocode := by
  unfold Obligations.WaitsRunTheirPseudocode
  intro i arg target s hwait idle hinit hfree
  obtain ⟨t, haccept, hbusy, hruns⟩ := wait_endsAs_waited hwait idle hinit hfree
  refine ⟨t, haccept, hbusy, fun fuel x hx => ?_⟩
  obtain ⟨n, -, u, hu, hends⟩ := hruns fuel x hx
  exact ⟨n, u, hu, hends⟩

/-! ### A bounded wait (R159) -/

/-- `waitFor` with polls left up to its bound ends, and the bound has run out exactly when the last
poll is off target (R157, R159). -/
theorem State.waitWhole_bounded (target : Bool) {limit fuel p : Nat} (hfuel : fuel ≠ 0)
    (hlimit : p + fuel = limit) (s : State) :
    ∃ x, State.waitWhole target limit fuel p s = some x ∧ x.2.1 = (x.1 != target) := by
  induction fuel generalizing p s with
  | zero => exact absurd rfl hfuel
  | succ fuel ih =>
    rw [State.waitWhole_succ]
    cases hv : afterPoll target s.touchedWhole.1 limit p with
    | some v => exact ⟨_, rfl, afterPoll_eq_some hv⟩
    | none =>
      obtain ⟨-, hleft⟩ := afterPoll_eq_none_iff.1 hv
      exact ih (by omega) (by omega) _

/-- Settles O24: `waitFor` ends within the bound, and so does the wait. -/
theorem boundedWaitEnds : Obligations.BoundedWaitEnds := by
  unfold Obligations.BoundedWaitEnds
  intro i arg target s hwait idle hinit hfree hlimit
  obtain ⟨t, haccept, -, hruns⟩ := wait_endsAs_waited hwait idle hinit hfree
  have hpolls : s.waitLimit.toNat ≠ 0 := by simpa [← BitVec.toNat_inj] using hlimit
  obtain ⟨x, hx, hanswer⟩ := s.noError.waitWhole_bounded target hpolls (Nat.zero_add _)
  obtain ⟨n, hn, u, hu, hends⟩ := hruns _ x hx
  have hstatus : u.status = (s.waited x).status := (congrArg State.status hends.same :)
  refine ⟨t, n, u, haccept, hu, hn, by rw [hstatus]; exact idle, ?_⟩
  rw [hstatus]
  by_cases hmet : x.1 = target
  · exact .inl (by simp [State.waited, hanswer, hmet])
  · exact .inr (by simp [State.waited, hanswer, hmet, Bool.eq_not_iff])

/-! ### An unbounded wait (R161) -/

theorem State.pollsOffTarget_succ {target : Bool} {m : Nat} {s r : State} :
    State.pollsOffTarget target (m + 1) s = some r ↔
      s.touchedWhole.1 ≠ target ∧ State.pollsOffTarget target m s.touchedWhole.2 = some r := by
  simp [State.pollsOffTarget]

/-- Polls change the serial side alone. -/
theorem State.pollsOffTarget_serial {target : Bool} {m : Nat} {s r : State}
    (hr : State.pollsOffTarget target m s = some r) : SerialStep s r := by
  induction m generalizing s with
  | zero => cases hr; exact .rfl' _
  | succ m ih =>
    obtain ⟨-, hr⟩ := State.pollsOffTarget_succ.1 hr
    exact s.touchedWhole_serial.trans (ih hr)

/-- Without a bound a wait takes every poll that is off target, and stands before the next
(R161). -/
theorem execs_pollsOffTarget {arg : Byte} {target : Bool} {m : Nat} {q : Seq} {s w : State}
    (hi : q.inFlight = some (waitCommand arg target)) (hlimit : q.limit = 0#32)
    (hw : State.pollsOffTarget target m s = some w) (r : Results) :
    ∃ (q' : Seq) (r' : Results), q'.inFlight = some (waitCommand arg target) ∧
      execs (waitCommand arg target) (m * s.checkSteps)
        (s.during (q.moveTo (s.touchedPos .check) r)) =
          .next (w.during (q'.moveTo (w.touchedPos .check) r')) := by
  induction m generalizing q r s with
  | zero => cases hw; rw [Nat.zero_mul]; exact ⟨q, r, hi, rfl⟩
  | succ m ih =>
    obtain ⟨hoff, hw⟩ := State.pollsOffTarget_succ.1 hw
    obtain ⟨p, r', -, hpoll⟩ := execs_check hi (waitCommand_runsCheck arg target) r s
    have hnone : afterPoll target s.touchedWhole.1 q.limit.toNat q.p = none :=
      afterPoll_eq_none_iff.2 ⟨hoff, by simp [hlimit]⟩
    simp only [waitDone_during, hnone] at hpoll
    obtain ⟨q', r'', hi', hpolls⟩ := ih (q := q.polled) hi hlimit hw r'
    rw [s.touchedWhole_serial.steady.checkSteps] at hpolls
    refine ⟨q', r'', hi', ?_⟩
    rw [Nat.succ_mul, Nat.add_comm]
    exact (execs_add hpoll _).trans hpolls

/-- The events between the two SetCS of a transaction are no SetCS and no PenSample, in number the
steps of one `readAxis` for each axis (R136). -/
theorem State.readAxisWhole_events (c : Byte) (s : State) :
    ∃ ev, (s.readAxisWhole c).2.hist = s.hist ++ ev ∧ transactions ev = 0 ∧ penSamples ev = 0 ∧
      ev.length = axisSteps s.status.modeEff := by
  unfold axisSteps
  split
  · next hw =>
    obtain ⟨e, b1, b2, hhist, -⟩ := State.readAxisWhole_events_hw hw c
    exact ⟨_, hhist, rfl, rfl, rfl⟩
  · next hw =>
    obtain ⟨e, v, hhist, -⟩ := State.readAxisWhole_events_sw hw c
    exact ⟨_, hhist, rfl, rfl, rfl⟩

theorem transactions_append (h ev : List Event) :
    transactions (h ++ ev) = transactions h + transactions ev :=
  List.countP_append

theorem penSamples_append (h ev : List Event) :
    penSamples (h ++ ev) = penSamples h + penSamples ev :=
  List.countP_append

/-- `readRaw` is one transaction, no PenSample, and as many events as steps (R137, R140). -/
theorem State.readRawWhole_events (s : State) :
    ∃ ev, s.readRawWhole.2.hist = s.hist ++ ev ∧ transactions ev = 1 ∧ penSamples ev = 0 ∧
      ev.length = rawSteps s.status.modeEff := by
  have st := ((s.setCs true).readAxisWhole_serial s.build.cmdX).1.steady
  obtain ⟨x, hx, xcs, xpen, xlen⟩ := (s.setCs true).readAxisWhole_events s.build.cmdX
  obtain ⟨y, hy, ycs, ypen, ylen⟩ :=
    ((s.setCs true).readAxisWhole s.build.cmdX).2.readAxisWhole_events s.build.cmdY
  rw [st.status, State.setCs_status] at ylen
  rw [State.setCs_status] at xlen
  refine ⟨[.cs true] ++ x ++ y ++ [.cs false], by simp [State.readRawWhole, hx, hy], ?_, ?_, ?_⟩
  · simp only [transactions_append, xcs, ycs]
    rfl
  · simp only [penSamples_append, xpen, ypen]
    rfl
  · simp only [List.length_append, List.length_singleton, xlen, ylen, rawSteps_eq]
    omega

/-- Without the pen line `m` polls are `m` transactions and nothing else on the bus (R153). -/
theorem State.pollsOffTarget_events {target : Bool} {m : Nat} {s r : State}
    (hirq : s.cfg.useIrq = false) (hr : State.pollsOffTarget target m s = some r) :
    ∃ ev, r.hist = s.hist ++ ev ∧ transactions ev = m ∧ penSamples ev = 0 ∧
      ev.length = m * rawSteps s.status.modeEff := by
  induction m generalizing s with
  | zero => cases hr; exact ⟨[], by simp, rfl, rfl, by simp⟩
  | succ m ih =>
    obtain ⟨-, hr⟩ := State.pollsOffTarget_succ.1 hr
    rw [State.touchedWhole_sample hirq] at hr
    have st := s.readRawWhole_serial.steady
    obtain ⟨first, hfirst, fcs, fpen, flen⟩ := s.readRawWhole_events
    obtain ⟨rest, hrest, rcs, rpen, rlen⟩ := ih (by rw [st.cfg, hirq]) hr
    rw [st.status] at rlen
    refine ⟨first ++ rest, by simp [hrest, hfirst], ?_, ?_, ?_⟩
    · rw [transactions_append, fcs, rcs, Nat.add_comm]
    · rw [penSamples_append, fpen, rpen]
    · rw [List.length_append, flen, rlen, Nat.succ_mul, Nat.add_comm]

theorem Env.takePen_cons {e : Env} {b : Bool} {rest : List Bool} (h : e.pen = b :: rest) :
    e.takePen = (b, { e with pen := rest }) := by
  simp [Env.takePen, h]

/-- A pen line that answers off target makes polls off target: it is low where there is contact, so
its level is the target itself (R152). -/
theorem State.pollsOffTarget_of_pen {target : Bool} {m : Nat} {s : State} {later : List Bool}
    (hirq : s.cfg.useIrq = true) (hpen : s.env.pen = List.replicate m target ++ later) :
    ∃ r, State.pollsOffTarget target m s = some r ∧
      r.hist = s.hist ++ List.replicate m (.pen target) ∧ r.env.pen = later := by
  induction m generalizing s with
  | zero => exact ⟨s, rfl, by simp, hpen⟩
  | succ m ih =>
    rw [List.replicate_succ, List.cons_append] at hpen
    have htake := Env.takePen_cons hpen
    have hlevel : s.penSample.1 = target := congrArg Prod.fst htake
    obtain ⟨r, hr, hhist, hlater⟩ := ih (s := s.penSample.2) hirq (by simp [htake])
    refine ⟨r, State.pollsOffTarget_succ.2 ?_, ?_, hlater⟩
    · rw [State.touchedWhole_pen hirq, hlevel]
      exact ⟨by simp, hr⟩
    · simp [hhist, hlevel, List.replicate_succ]

theorem State.during_withoutSequencer (q : Seq) (w : State) : (w.during q).withoutSequencer =
    { w with status := { w.status with busy := true } }.withoutSequencer := rfl

/-- Settles O25: the wait takes the polls, which are transactions or levels of the line. -/
theorem unboundedWaitPollsOn : Obligations.UnboundedWaitPollsOn := by
  unfold Obligations.UnboundedWaitPollsOn
  intro i arg target m s hwait idle hinit hfree hlimit
  obtain rfl := eq_waitCommand hwait
  refine ⟨fun w hw => ?_, fun later hirq hpen => State.pollsOffTarget_of_pen hirq hpen⟩
  obtain ⟨q, r, hi, hpolls⟩ := execs_pollsOffTarget
    (q := s.seq.waiting (waitCommand arg target) s.waitLimit) (s.seq.started_inFlight _) hlimit hw
    s.seq.res
  have st := (State.pollsOffTarget_serial hw).steady
  have hpos : w.touchedPos .check = s.touchedPos .check := by
    rw [State.touchedPos, State.touchedPos, st.cfg]
    rfl
  have hevents (hirq : s.noError.cfg.useIrq = false) := State.pollsOffTarget_events hirq hw
  refine ⟨_, _, exec_wait arg target idle hinit hfree, hpolls, ⟨rfl, hi, hpos⟩, ?_, hevents⟩
  rw [State.during_withoutSequencer, st.status]
  rfl

end Sys2Proof.Machine
end

section
/-! PROOFS. Statements of 43_accumulator.md: SET_PREC, the exact mean of the sums, and the
sequencer's run of `measure()` from acceptance to commit with its transactions and cycles. -/

namespace Sys2Proof.Machine

/-! ### SET_PREC (R171, R255) -/

/-- SET_PREC 0 passes every check but the last (R257). -/
theorem check_setPrec_zero (s : State) : check (.setPrec 0#8) s = .badArg := rfl

/-- Settles O13: with n ≠ 0 the command meets no check and only commits; with n = 0 it meets
R255's. -/
theorem setPrecWritesPrec : Obligations.SetPrecWritesPrec := by
  unfold Obligations.SetPrecWritesPrec
  intro n s idle
  refine ⟨fun hn => ?committed, fun hn => ?refused⟩
  case committed =>
    have haccept := exec_started (i := .setPrec n) idle
      (check_eq_none rfl nofun nofun (by simpa [isBadArg] using hn)) rfl fun _ => rfl
    refine ⟨_, haccept, rfl, ?_⟩
    rw [exec_commit rfl (s.seq.started_inFlight (.setPrec n)) rfl]
    conv_rhs => rw [State.eq_of_idle idle]
    rfl
  case refused =>
    subst hn
    rw [exec_eq_command, State.command_idle idle, State.submit, check_setPrec_zero]
    rfl

/-! ### The sums and the mean (R173, R175, R179) -/

/-- The samples of one axis, added to a cleared sum (R175). -/
def axisSum (axis : Sample → U12) (vs : List Sample) : U20 :=
  vs.foldl (fun acc v => acc + (axis v).setWidth 20) 0#20

/-- Adding up samples adds up each axis on its own, and leaves PREC. -/
theorem foldl_accumulate (vs : List Sample) (s : State) :
    (vs.foldl (fun t v => t.accumulate v) s).accX =
        vs.foldl (fun acc v => acc + v.x.setWidth 20) s.accX ∧
      (vs.foldl (fun t v => t.accumulate v) s).accY =
        vs.foldl (fun acc v => acc + v.y.setWidth 20) s.accY ∧
      (vs.foldl (fun t v => t.accumulate v) s).prec = s.prec := by
  induction vs generalizing s with
  | nil => exact ⟨rfl, rfl, rfl⟩
  | cons v vs ih => exact ih (s.accumulate v)

/-- A sum that stays below 2^20 is exact (R173). -/
theorem foldl_add_toNat {axis : Sample → U12} {vs : List Sample} {acc : U20}
    (h : acc.toNat + (vs.map fun v => (axis v).toNat).sum < 2 ^ 20) :
    (vs.foldl (fun acc v => acc + (axis v).setWidth 20) acc).toNat =
      acc.toNat + (vs.map fun v => (axis v).toNat).sum := by
  induction vs generalizing acc with
  | nil => rfl
  | cons v vs ih =>
    rw [List.map_cons, List.sum_cons, ← Nat.add_assoc] at h ⊢
    have hfirst : (acc + (axis v).setWidth 20).toNat = acc.toNat + (axis v).toNat := by
      rw [BitVec.toNat_add, BitVec.toNat_setWidth]
      omega
    rw [List.foldl_cons, ih (by rwa [hfirst]), hfirst]

/-- Each sample adds at most 4095 to a sum, rails included (R173, R176). -/
theorem sum_le_of_samples (axis : Sample → U12) (vs : List Sample) :
    (vs.map fun v => (axis v).toNat).sum ≤ vs.length * 4095 := by
  have h := List.sum_le_card_nsmul (vs.map fun v => (axis v).toNat) 4095 fun n hn => by
    obtain ⟨v, -, rfl⟩ := List.mem_map.1 hn
    exact Nat.le_of_lt_succ (axis v).isLt
  simpa using h

/-- The truncated mean lies between the smallest and the largest of the values (R179). -/
theorem mean_between {vs : List Sample} (hne : vs ≠ []) (f : Sample → Nat) :
    (∃ v ∈ vs, f v ≤ (vs.map f).sum / vs.length) ∧
      ∃ v ∈ vs, (vs.map f).sum / vs.length ≤ f v := by
  have hpos : 0 < vs.length := List.length_pos_of_ne_nil hne
  refine ⟨?_, List.exists_le_of_sum_le hne (f := fun _ => _) f ?_⟩
  · obtain ⟨v, hv, hlt⟩ := List.exists_lt_of_sum_lt (l := vs) (f := f)
      (g := fun _ => (vs.map f).sum / vs.length + 1)
      (by simpa using Nat.lt_mul_div_succ _ hpos)
    exact ⟨v, hv, Nat.le_of_lt_succ hlt⟩
  · simpa using Nat.mul_div_le _ _

/-- One axis of a measurement of as many samples as PREC.N (R173, R175, R179). -/
theorem axisSum_mean {vs : List Sample} {n : Byte} (hlen : vs.length = n.toNat)
    (axis : Sample → U12) :
    (axisSum axis vs).toNat = (vs.map fun v => (axis v).toNat).sum ∧
      (quotient (axisSum axis vs) n).toNat =
        (vs.map fun v => (axis v).toNat).sum / vs.length := by
  have hle := sum_le_of_samples axis vs
  have hn := n.isLt
  have hsum : (axisSum axis vs).toNat = (vs.map fun v => (axis v).toNat).sum := by
    rw [axisSum, foldl_add_toNat (by simp only [BitVec.toNat_ofNat]; omega)]
    simp
  have hmean : (vs.map fun v => (axis v).toNat).sum / vs.length ≤ 4095 :=
    Nat.div_le_of_le_mul hle
  refine ⟨hsum, ?_⟩
  rw [quotient, hsum, ← hlen, BitVec.toNat_ofNat, Nat.mod_eq_of_lt (Nat.lt_succ_of_le hmean)]

/-- Settles O35: the sums and the quotient of each axis, and the bounds of any truncated mean. -/
theorem meanIsExact : Obligations.MeanIsExact := by
  unfold Obligations.MeanIsExact
  intro vs s hne hlen t ht
  obtain ⟨hx, hy, hprec⟩ := foldl_accumulate vs { s with accX := 0#20, accY := 0#20 }
  rw [← ht] at hx hy hprec
  obtain ⟨xsum, xmean⟩ := axisSum_mean hlen Sample.x
  obtain ⟨ysum, ymean⟩ := axisSum_mean hlen Sample.y
  have hmean : t.mean = ⟨quotient (axisSum Sample.x vs) s.prec,
      quotient (axisSum Sample.y vs) s.prec⟩ := by
    rw [State.mean, hx, hy, hprec]
    rfl
  obtain ⟨xlow, xhigh⟩ := mean_between hne fun v => v.x.toNat
  obtain ⟨ylow, yhigh⟩ := mean_between hne fun v => v.y.toNat
  rw [hmean, xmean, ymean, hx, hy]
  exact ⟨xsum, ysum, rfl, rfl, xlow, xhigh, ylow, yhigh⟩

/-! ### `measure()` as a whole function (R175) -/

theorem Steady.trans {s t u : State} (h : Steady s t) (k : Steady t u) : Steady s u where
  op := k.op.trans h.op
  arg := k.arg.trans h.arg
  status := k.status.trans h.status
  build := k.build.trans h.build
  prec := k.prec.trans h.prec
  cfg := k.cfg.trans h.cfg
  cfgLocked := k.cfgLocked.trans h.cfgLocked
  rstN := k.rstN.trans h.rstN
  oe := k.oe.trans h.oe
  low := k.low ∘ h.low

/-- One sample read and added up (R175). -/
def State.sampled (s : State) : State :=
  s.readRawWhole.2.accumulate s.readRawWhole.1

theorem State.sumWhole_succ (n : Nat) (s : State) :
    State.sumWhole (n + 1) s = State.sumWhole n s.sampled := rfl

/-- The discard read with the sums cleared (R174). -/
def State.discarded (s : State) : State :=
  { s.readRawWhole.2 with accX := 0#20, accY := 0#20 }

theorem State.measureWhole_eq (s : State) : s.measureWhole =
    ((State.sumWhole s.prec.toNat s.discarded).mean, State.sumWhole s.prec.toNat s.discarded) := rfl

theorem State.sampled_steady (s : State) : Steady s s.sampled :=
  s.readRawWhole_serial.steady.of_accumulate

theorem State.discarded_steady (s : State) : Steady s s.discarded :=
  have st := s.readRawWhole_serial.steady
  ⟨st.op, st.arg, st.status, st.build, st.prec, st.cfg, st.cfgLocked, st.rstN, st.oe, st.low⟩

theorem State.sumWhole_steady (n : Nat) (s : State) : Steady s (State.sumWhole n s) := by
  induction n generalizing s with
  | zero => exact (SerialStep.rfl' s).steady
  | succ n ih => exact s.sampled_steady.trans (ih s.sampled)

/-- `measure()` leaves the command, STATUS, PREC, CFG and the build alone (R177). -/
theorem State.measureWhole_steady (s : State) : Steady s s.measureWhole.2 :=
  s.discarded_steady.trans (State.sumWhole_steady _ _)

/-! ### The sequencer's `measure()` -/

/-- In a measurement each step of `i` is one of `measure()`, whose mean goes to `done` (R175). -/
structure RunsMeasure (i : Instr) (done : Sample → State → State) : Prop where
  discard : ∀ p t, t.seq.pos = .raw .discard p →
    stepOf i t = some (t.rawStep .discard p fun _ t => discardDone t)
  sample : ∀ p t, t.seq.pos = .raw .sample p →
    stepOf i t = some (t.rawStep .sample p (sampleDone done))

/-- The sequencer's registers while sample `j` of a measurement is read (R175). -/
def Seq.sampling (j : Nat) (q : Seq) : Seq :=
  { q with j := j }

/-- The partial results of a command whose last transaction has left the byte `b` and the sample
`v`. -/
def Results.read (b : Byte) (v : Sample) (r : Results) : Results :=
  { r with byte := b, x := v.x, y := v.y }

/-- The sequencer goes from the discard read to the first sample (R174). -/
theorem discardDone_during (q : Seq) (p : Pos) (r : Results) (w : State) :
    discardDone (w.during (q.moveTo p r)) =
      { w with accX := 0#20, accY := 0#20 }.during
        ((q.sampling 1).moveTo (.raw .sample .csOn) r) := rfl

section
variable {i : Instr} {done : Sample → State → State} {q : Seq}

/-- The steps of sample `j` end with the next one to come, or with the mean handed to `done`
(R175). -/
theorem execs_sample (hi : q.inFlight = some i) (hrun : RunsMeasure i done) (j : Nat) (r : Results)
    (s : State) :
    ∃ b, execs i (rawSteps s.status.modeEff)
        (s.during ((q.sampling j).moveTo (.raw .sample .csOn) r)) =
      .next (if j < s.prec.toNat then
          s.sampled.during ((q.sampling (j + 1)).moveTo (.raw .sample .csOn)
            (r.read b s.readRawWhole.1))
        else done s.sampled.mean (s.sampled.during ((q.sampling j).moveTo (.raw .sample .csOff)
          (r.read b s.readRawWhole.1)))) := by
  obtain ⟨b, hraw⟩ := execs_raw (q := q.sampling j) hi hrun.sample r s
  refine ⟨b, hraw.trans ?_⟩
  rw [← s.readRawWhole_serial.steady.prec]
  rfl

/-- The steps of the samples from `j` to PREC.N end where their whole sum ends, the mean handed to
`done` (R175). -/
theorem execs_sum (hi : q.inFlight = some i) (hrun : RunsMeasure i done) {n j : Nat} {s : State}
    (hj : j + n = s.prec.toNat) (r : Results) :
    ∃ b v, execs i ((n + 1) * rawSteps s.status.modeEff)
        (s.during ((q.sampling j).moveTo (.raw .sample .csOn) r)) =
      .next (done (State.sumWhole (n + 1) s).mean ((State.sumWhole (n + 1) s).during
        ((q.sampling s.prec.toNat).moveTo (.raw .sample .csOff) (r.read b v)))) := by
  induction n generalizing j r s with
  | zero =>
    obtain ⟨b, hlast⟩ := execs_sample hi hrun j r s
    rw [if_neg (by omega)] at hlast
    rw [Nat.zero_add, Nat.one_mul, ← hj]
    exact ⟨b, s.readRawWhole.1, hlast⟩
  | succ n ih =>
    obtain ⟨b, hfirst⟩ := execs_sample hi hrun j r s
    rw [if_pos (by omega)] at hfirst
    have st := s.sampled_steady
    obtain ⟨b', v, hrest⟩ := ih (j := j + 1) (s := s.sampled) (by rw [st.prec]; omega)
      (r.read b s.readRawWhole.1)
    rw [st.status, st.prec] at hrest
    refine ⟨b', v, ?_⟩
    rw [Nat.succ_mul, Nat.add_comm]
    exact (execs_add hfirst _).trans hrest

/-- The steps of a measurement end where the whole `measure()` ends, its answer handed to `done`
(R175). -/
theorem execs_measure (hi : q.inFlight = some i) (hrun : RunsMeasure i done) {s : State}
    (hprec : s.prec ≠ 0#8) (r : Results) :
    ∃ b v, execs i (measureSteps s) (s.during (q.moveTo (.raw .discard .csOn) r)) =
      .next (done s.measureWhole.1 (s.measureWhole.2.during
        ((q.sampling s.prec.toNat).moveTo (.raw .sample .csOff) (r.read b v)))) := by
  obtain ⟨b, hdiscard⟩ := execs_raw hi hrun.discard r s
  rw [discardDone_during] at hdiscard
  have st := s.discarded_steady
  have hpos : s.prec.toNat ≠ 0 := by simpa [← BitVec.toNat_inj] using hprec
  obtain ⟨n, hn⟩ := Nat.exists_eq_succ_of_ne_zero hpos
  obtain ⟨b', v, hsum⟩ := execs_sum (s := s.discarded) hi hrun (n := n) (j := 1)
    (by rw [st.prec]; omega) (r.read b s.readRawWhole.1)
  rw [st.status, st.prec] at hsum
  refine ⟨b', v, ?_⟩
  rw [measureSteps, Nat.add_mul, Nat.one_mul, State.measureWhole_eq, hn]
  rw [hn] at hsum
  exact (execs_add hdiscard _).trans hsum

end

/-! ### MEASURE (R177) -/

theorem measure_runsMeasure (arg : Byte) : RunsMeasure (.measure arg)
    fun m t => (t.keep fun r => { r with mean := m }).goto .commit where
  discard p t hpos := by simp [stepOf, stepMeasure, hpos]
  sample p t hpos := by simp [stepOf, stepMeasure, hpos]

/-- MEASURE from acceptance to commit: the steps of one `measure()` and the commit of its answer
(R177). -/
theorem measure_endsAs (arg : Byte) {s : State} (idle : s.status.busy = false)
    (hinit : s.status.initDone = true) (hfree : s.status.csHeld = false) (hprec : s.prec ≠ 0#8) :
    ∃ t u, exec (.measure arg) s = .next t ∧ t.status.busy = true ∧
      execs (.measure arg) (measureSteps s + 1) t = .next u ∧
      u.EndsAs { s.noError.measureWhole.2 with meas := s.noError.measureWhole.1 } := by
  have hi := s.seq.started_inFlight (.measure arg)
  have haccept := exec_started (i := .measure arg) idle
    (check_eq_none rfl (fun _ => hinit) (fun _ => hfree) rfl) rfl fun _ => rfl
  obtain ⟨b, v, hmeasure⟩ :=
    execs_measure (s := s.noError) hi (measure_runsMeasure arg) hprec s.seq.res
  have hstatus := s.noError.measureWhole_steady.status
  exact ⟨_, _, haccept, rfl,
    (execs_add hmeasure 1).trans
      (execs_succ_during (q := (s.seq.started (.measure arg)).sampling s.prec.toNat) hi
        (stepOf_commit rfl) 0),
    State.commit_during_endsAs
      (w := { s.noError.measureWhole.2 with meas := s.noError.measureWhole.1 })
      ((congrArg Status.busy hstatus).trans idle) (congrArg Status.err hstatus) _⟩

/-- Settles O20: `measureSteps` is the obligation's count of steps less the commit. -/
theorem measureRunsItsPseudocode : Obligations.MeasureRunsItsPseudocode := by
  unfold Obligations.MeasureRunsItsPseudocode
  intro arg s idle hinit hfree hprec
  exact measure_endsAs arg idle hinit hfree hprec

/-! ### The transactions of a measurement (R178, R295) -/

/-- `count` grows by `k` in every transaction of the build `b` in the mode `mode`. -/
def PerTransaction (b : Params) (mode : Option TransportMode) (count : List Event → Nat)
    (k : Nat) : Prop :=
  ∀ t : State, t.build = b → t.status.modeEff = mode →
    count t.readRawWhole.2.hist = count t.hist + k

theorem transactions_perTransaction (b : Params) (mode : Option TransportMode) :
    PerTransaction b mode transactions 1 := fun t _ _ => by
  obtain ⟨ev, hist, hcs, -, -⟩ := t.readRawWhole_events
  rw [hist, transactions_append, hcs]

theorem length_perTransaction (b : Params) (mode : Option TransportMode) :
    PerTransaction b mode List.length (rawSteps mode) := fun t _ hmode => by
  obtain ⟨ev, hist, -, -, hlen⟩ := t.readRawWhole_events
  rw [hist, List.length_append, hlen, hmode]

theorem historyCycles_append (b : Params) (mode : Option TransportMode) (h ev : List Event) :
    historyCycles b mode (h ++ ev) = historyCycles b mode h + historyCycles b mode ev := by
  simp [historyCycles]

/-- The cycles of one `readAxis` (R295): three exchanges, or one and a 12-bit read, and a
settling. -/
def axisCycles (b : Params) (mode : Option TransportMode) : Nat :=
  if mode = some .hw then 24 * b.hwDiv + b.tSettle else 40 * b.swHalf + b.tSettle

theorem State.readAxisWhole_cycles (c : Byte) (s : State) :
    historyCycles s.build s.status.modeEff (s.readAxisWhole c).2.hist =
      historyCycles s.build s.status.modeEff s.hist + axisCycles s.build s.status.modeEff := by
  unfold axisCycles
  split
  · next hw =>
    obtain ⟨e, b1, b2, hist, -⟩ := State.readAxisWhole_events_hw hw c
    rw [hist, historyCycles_append]
    simp only [historyCycles, eventCycles, List.map_cons, List.map_nil, List.sum_cons,
      List.sum_nil, if_pos hw]
    omega
  · next sw =>
    obtain ⟨e, v, hist, -⟩ := State.readAxisWhole_events_sw sw c
    rw [hist, historyCycles_append]
    simp only [historyCycles, eventCycles, List.map_cons, List.map_nil, List.sum_cons,
      List.sum_nil, if_neg sw]
    omega

/-- A transaction takes the cycles of its two `readAxis` and of the two SetCS (R295). -/
theorem historyCycles_perTransaction (b : Params) (mode : Option TransportMode) :
    PerTransaction b mode (historyCycles b mode) (2 + 2 * axisCycles b mode) := by
  intro t hb hmode
  subst hb hmode
  have st := ((t.setCs true).readAxisWhole_serial t.build.cmdX).1.steady
  have hx := (t.setCs true).readAxisWhole_cycles t.build.cmdX
  have hy := ((t.setCs true).readAxisWhole t.build.cmdX).2.readAxisWhole_cycles t.build.cmdY
  rw [st.build, st.status] at hy
  simp only [State.setCs_build, State.setCs_status] at hx hy
  simp only [State.readRawWhole, State.setCs_hist, historyCycles_append, hy, hx]
  simp only [historyCycles, eventCycles, List.map_cons, List.map_nil, List.sum_cons, List.sum_nil]
  omega

section
variable {b : Params} {mode : Option TransportMode} {count : List Event → Nat} {k : Nat} {s : State}

/-- `n` samples are `n` transactions (R175). -/
theorem State.sumWhole_count (hcount : PerTransaction b mode count k) (n : Nat) (hb : s.build = b)
    (hmode : s.status.modeEff = mode) :
    count (State.sumWhole n s).hist = count s.hist + n * k := by
  induction n generalizing s with
  | zero => simp [State.sumWhole]
  | succ n ih =>
    have st := s.sampled_steady
    have hfirst : count s.sampled.hist = count s.hist + k := hcount s hb hmode
    rw [State.sumWhole_succ, ih (st.build.trans hb) (by rw [st.status, hmode]), hfirst,
      Nat.succ_mul]
    omega

/-- A measurement is the discard read and PREC.N samples (R178). -/
theorem State.measureWhole_count (hcount : PerTransaction b mode count k) (hb : s.build = b)
    (hmode : s.status.modeEff = mode) :
    count s.measureWhole.2.hist = count s.hist + (1 + s.prec.toNat) * k := by
  have st := s.discarded_steady
  have hdiscard : count s.discarded.hist = count s.hist + k := hcount s hb hmode
  rw [State.measureWhole_eq, State.sumWhole_count hcount _ (st.build.trans hb)
    (by rw [st.status, hmode]), hdiscard, Nat.add_mul, Nat.one_mul]
  omega

end

theorem State.readRawWhole_addsEvents (s : State) : s.hist <+: s.readRawWhole.2.hist :=
  have ⟨ev, hist, _⟩ := s.readRawWhole_events
  ⟨ev, hist.symm⟩

theorem State.sumWhole_addsEvents (n : Nat) (s : State) : s.hist <+: (State.sumWhole n s).hist := by
  induction n generalizing s with
  | zero => exact ⟨[], List.append_nil _⟩
  | succ n ih => exact s.readRawWhole_addsEvents.trans (ih s.sampled)

/-- A measurement only adds events to the history (R296). -/
theorem State.measureWhole_addsEvents (s : State) : s.hist <+: s.measureWhole.2.hist :=
  s.readRawWhole_addsEvents.trans (State.sumWhole_addsEvents s.prec.toNat s.discarded)

/-- Settles O36: the counts of the events that `measure()` has added to the history. -/
theorem measureCountsItsTransactions : Obligations.MeasureCountsItsTransactions := by
  unfold Obligations.MeasureCountsItsTransactions
  intro arg s idle hinit hfree hprec
  obtain ⟨t, u, haccept, -, hu, hends⟩ := measure_endsAs arg idle hinit hfree hprec
  obtain ⟨ev, hev⟩ := s.noError.measureWhole_addsEvents
  have hist : u.hist = s.hist ++ ev := (congrArg State.hist hends.same).trans hev.symm
  have hstatus := (congrArg State.status hends.same).trans s.noError.measureWhole_steady.status
  have hcount {count k} (h : PerTransaction s.build s.status.modeEff count k) :
      count (s.hist ++ ev) = count s.hist + (1 + s.prec.toNat) * k := by
    rw [show s.hist ++ ev = _ from hev]
    exact State.measureWhole_count (s := s.noError) h rfl rfl
  have hcs := hcount (transactions_perTransaction _ _)
  have hlen := hcount (length_perTransaction _ _)
  have hcycles := hcount (historyCycles_perTransaction _ _)
  rw [transactions_append] at hcs
  rw [List.length_append] at hlen
  rw [historyCycles_append] at hcycles
  refine ⟨t, _, u, ev, haccept, hu, (congrArg Status.busy hstatus).trans idle, hist, by omega,
    by omega, ?_⟩
  rw [Nat.add_left_cancel hcycles, commitCycles, axisCycles]
  split <;> ring

end Sys2Proof.Machine
end

section
/-! PROOFS. Statements of 44_median.md: the median of the sorted values and its laws, and the
sequencer's run of `gather()` from acceptance to commit with its transactions and PenSamples. -/

namespace Sys2Proof.Machine

/-! ### Sorting (R190) -/

theorem insertSorted_eq_orderedInsert (v : Nat) (l : List Nat) :
    insertSorted v l = l.orderedInsert (· ≤ ·) v := by
  induction l with
  | nil => rfl
  | cons w rest ih => simp [insertSorted, ih]

theorem sortAscending_eq_insertionSort (l : List Nat) :
    sortAscending l = l.insertionSort (· ≤ ·) := by
  induction l with
  | nil => rfl
  | cons v rest ih =>
    rw [sortAscending, ih, insertSorted_eq_orderedInsert, List.insertionSort_cons]

theorem sortAscending_perm (l : List Nat) : (sortAscending l).Perm l := by
  rw [sortAscending_eq_insertionSort]
  exact List.perm_insertionSort _ l

theorem sortAscending_pairwise (l : List Nat) : (sortAscending l).Pairwise (· ≤ ·) := by
  rw [sortAscending_eq_insertionSort]
  exact List.pairwise_insertionSort _ l

/-- `sort_ascending` gives the one ascending arrangement of its values. -/
theorem sortAscending_eq_of_perm {l sorted : List Nat} (hperm : sorted.Perm l)
    (hasc : sorted.Pairwise (· ≤ ·)) : sortAscending l = sorted :=
  ((sortAscending_perm l).trans hperm.symm).eq_of_pairwise' (sortAscending_pairwise l) hasc

/-- An element of an arrangement of u12 values is the number of one of them. -/
theorem exists_getD_of_perm {v : List U12} {sorted : List Nat}
    (hperm : sorted.Perm (v.map BitVec.toNat)) {n : Nat} (hn : n < v.length) :
    ∃ u ∈ v, sorted.getD n 0 = u.toNat := by
  have hlen : n < sorted.length := by rwa [hperm.length_eq, List.length_map]
  rw [List.getD_eq_getElem _ _ hlen]
  obtain ⟨u, hu, heq⟩ := List.mem_map.1 (hperm.mem_iff.1 (List.getElem_mem hlen))
  exact ⟨u, hu, heq.symm⟩

/-! ### The median (R190, R191) -/

/-- Either average of two values lies between them (R191, R196). -/
theorem mid2_between (mode : MedianRound) {a b : Nat} (hab : a ≤ b) :
    a ≤ mid2 mode a b ∧ mid2 mode a b ≤ b := by
  cases mode <;> simp only [mid2] <;> omega

section
variable (mode : MedianRound) {v : List U12} {sorted : List Nat}
  (hperm : sorted.Perm (v.map BitVec.toNat)) (hasc : sorted.Pairwise (· ≤ ·))
include hperm hasc

/-- The median of an odd count is the middle element (R190). -/
theorem median_toNat_of_odd (hodd : v.length % 2 = 1) :
    (median mode v).toNat = sorted.getD ((v.length - 1) / 2) 0 := by
  obtain ⟨u, -, hu⟩ := exists_getD_of_perm hperm (n := (v.length - 1) / 2) (by omega)
  rw [median, sortAscending_eq_of_perm hperm hasc, if_pos hodd, hu, BitVec.ofNat_toNat,
    BitVec.setWidth_eq]

/-- The two middle elements of an even count, in order. -/
theorem middle_le (hne : v ≠ []) (heven : v.length % 2 = 0) :
    sorted.getD (v.length / 2 - 1) 0 ≤ sorted.getD (v.length / 2) 0 := by
  have hpos := List.length_pos_iff.2 hne
  have hlen : sorted.length = v.length := by rw [hperm.length_eq, List.length_map]
  rw [List.getD_eq_getElem _ _ (by omega), List.getD_eq_getElem _ _ (by omega)]
  exact List.pairwise_iff_getElem.1 hasc _ _ _ _ (by omega)

/-- The median of an even count is the average of the two middle elements (R191). -/
theorem median_toNat_of_even (hne : v ≠ []) (heven : v.length % 2 = 0) :
    (median mode v).toNat =
      mid2 mode (sorted.getD (v.length / 2 - 1) 0) (sorted.getD (v.length / 2) 0) := by
  have hpos := List.length_pos_iff.2 hne
  obtain ⟨-, hle⟩ := mid2_between mode (middle_le hperm hasc hne heven)
  obtain ⟨u, -, hu⟩ := exists_getD_of_perm hperm (n := v.length / 2) (by omega)
  have hlt := u.isLt
  rw [median, sortAscending_eq_of_perm hperm hasc, if_neg (by omega), BitVec.toNat_ofNat,
    Nat.mod_eq_of_lt (by omega)]

end

/-- Settles O37: `mid2` is the floor or the half-up average. -/
theorem medianOfTheSortedValues : Obligations.MedianOfTheSortedValues := by
  unfold Obligations.MedianOfTheSortedValues
  intro mode v sorted hne hperm hasc
  refine ⟨median_toNat_of_odd mode hperm hasc, fun heven => ?_⟩
  rw [median_toNat_of_even mode hperm hasc hne heven]
  cases mode <;> rfl

/-! ### The laws of the median (R196) -/

/-- The order of the values does not matter. -/
theorem median_eq_of_perm (mode : MedianRound) {v w : List U12} (h : v.Perm w) :
    median mode v = median mode w := by
  have hsort : sortAscending (v.map BitVec.toNat) = sortAscending (w.map BitVec.toNat) :=
    sortAscending_eq_of_perm ((sortAscending_perm _).trans (h.map _).symm)
      (sortAscending_pairwise _)
  simp only [median, hsort, h.length_eq]

/-- The median of an odd count is one of the values. -/
theorem median_mem_of_odd (mode : MedianRound) {v : List U12} (hodd : v.length % 2 = 1) :
    median mode v ∈ v := by
  have hperm := sortAscending_perm (v.map BitVec.toNat)
  obtain ⟨u, hmem, hu⟩ := exists_getD_of_perm hperm (n := (v.length - 1) / 2) (by omega)
  have hmedian := median_toNat_of_odd mode hperm (sortAscending_pairwise _) hodd
  rwa [BitVec.eq_of_toNat_eq (hmedian.trans hu)]

/-- Settles O38: each axis of a pair is a median of its own list. -/
theorem medianLaws : Obligations.MedianLaws := by
  unfold Obligations.MedianLaws
  refine fun mode => ⟨fun _ _ => median_eq_of_perm mode, fun _ => median_mem_of_odd mode,
    fun v sorted hne heven hperm hasc => ?_, fun _ _ => median_eq_of_perm mode,
    fun _ _ => median_eq_of_perm mode⟩
  rw [median_toNat_of_even mode hperm hasc hne heven]
  exact mid2_between mode (middle_le hperm hasc hne heven)

/-! ### `gather()` as a whole function (R193) -/

/-- Measurement `i` taken and stored (R193). -/
def State.measureInto (i : Nat) (s : State) : State :=
  s.measureWhole.2.storeMeasurement i s.measureWhole.1

theorem State.measureInto_steady (i : Nat) (s : State) : Steady s (s.measureInto i) :=
  s.measureWhole_steady.trans ⟨rfl, rfl, rfl, rfl, rfl, rfl, rfl, rfl, rfl, id⟩

theorem State.measureInto_hist (i : Nat) (s : State) :
    (s.measureInto i).hist = s.measureWhole.2.hist := rfl

/-- Measurement `i` and the presence check after it, with the check's answer (R193). -/
def State.gatherRound (i : Nat) (s : State) : Bool × State :=
  (s.measureInto i).touchedWhole

theorem State.gatherRound_steady (i : Nat) (s : State) : Steady s (s.gatherRound i).2 :=
  (s.measureInto_steady i).trans (s.measureInto i).touchedWhole_serial.steady

/-- `gather()` ends after a round whose check finds no contact or that was the last one allowed, and
goes on otherwise (R193, R194). -/
theorem State.gatherFrom_eq (left i : Nat) (s : State) :
    State.gatherFrom left i s =
      if (s.gatherRound i).1 = true ∧ 0 < left then
        State.gatherFrom (left - 1) (i + 1) (s.gatherRound i).2
      else ⟨(s.gatherRound i).1, i + 1, (s.gatherRound i).2⟩ := by
  conv_lhs => unfold State.gatherFrom
  rw [State.gatherRound, State.measureInto]
  cases contact : (s.measureWhole.2.storeMeasurement i s.measureWhole.1).touchedWhole.1 with
  | false => simp [contact]
  | true => cases left <;> simp [contact]

/-- What holds of a `gather()` that ends after its first round, and of one that goes on when it
holds of the rest, holds of every `gather()`. -/
theorem State.gatherFrom_induct {motive : Nat → Nat → State → Gathered → Prop}
    (ends : ∀ left i s, ¬ ((s.gatherRound i).1 = true ∧ 0 < left) →
      motive left i s ⟨(s.gatherRound i).1, i + 1, (s.gatherRound i).2⟩)
    (goesOn : ∀ left i s g, (s.gatherRound i).1 = true → motive left (i + 1) (s.gatherRound i).2 g →
      motive (left + 1) i s g)
    (left i : Nat) (s : State) : motive left i s (State.gatherFrom left i s) := by
  induction left generalizing i s with
  | zero =>
    rw [State.gatherFrom_eq, if_neg (by simp)]
    exact ends 0 i s (by simp)
  | succ left ih =>
    rw [State.gatherFrom_eq]
    split
    · next h => exact goesOn left i s _ h.1 (ih (i + 1) _)
    · next h => exact ends (left + 1) i s h

/-- `gather()` leaves the command, STATUS, PREC, CFG and the build alone (R195). -/
theorem State.gatherFrom_steady (left i : Nat) (s : State) :
    Steady s (State.gatherFrom left i s).state :=
  State.gatherFrom_induct (motive := fun _ _ s g => Steady s g.state)
    (fun _ i s _ => s.gatherRound_steady i)
    (fun _ i s _ _ rest => (s.gatherRound_steady i).trans rest) left i s

theorem State.gatherWhole_steady (s : State) : Steady s s.gatherWhole.state :=
  s.gatherFrom_steady _ 0

/-- `gather()` takes at least one measurement, at most as many as are allowed, and all of them when
it is complete (R193, R194). -/
theorem State.gatherFrom_k (left i : Nat) (s : State) :
    i < (State.gatherFrom left i s).k ∧ (State.gatherFrom left i s).k ≤ i + left + 1 ∧
      ((State.gatherFrom left i s).complete = true →
        (State.gatherFrom left i s).k = i + left + 1) := by
  refine State.gatherFrom_induct (motive := fun left i _ g =>
    i < g.k ∧ g.k ≤ i + left + 1 ∧ (g.complete = true → g.k = i + left + 1)) ?ends ?goesOn left i s
  case ends =>
    intro left i s h
    have last (contact : (s.gatherRound i).1 = true) : left = 0 := by
      by_contra hleft
      exact h ⟨contact, by omega⟩
    exact ⟨by simp, by simp, fun contact => by simp [last contact]⟩
  case goesOn =>
    intro left i s g _ ⟨hlow, hhigh, hall⟩
    exact ⟨by omega, by omega, fun h => by rw [hall h]; omega⟩

/-! ### The sequencer's `gather()` -/

/-- Before the commit of a gather each step of `i` is one of `gather()` (R193). -/
structure RunsGather (i : Instr) : Prop where
  measure : RunsMeasure i measurementDone
  check : RunsCheck i .check checkDone

/-- The sequencer's registers of a gather at its next measurement (R193). -/
def Seq.nextMeasurement (q : Seq) : Seq :=
  { q with i := q.i + 1 }

theorem Seq.sampling_i (j : Nat) (q : Seq) : (q.sampling j).i = q.i := rfl

/-- A presence check writes only the partial results of a transaction, so that a gather's check
keeps the answer of READ_TOUCH's gate (R154, R235). -/
theorem execs_check_read {i : Instr} {u : Use} {done : Bool → State → State} {q : Seq}
    (hi : q.inFlight = some i) (hrun : RunsCheck i u done) (r : Results) (s : State) :
    ∃ p b v, execs i s.checkSteps (s.during (q.moveTo (s.touchedPos u) r)) =
      .next (done s.touchedWhole.1 (s.touchedWhole.2.during (q.moveTo p (r.read b v)))) := by
  cases hirq : s.cfg.useIrq with
  | true =>
    refine ⟨.pen u, r.byte, ⟨r.x, r.y⟩, ?_⟩
    rw [State.checkSteps, checkSteps, State.touchedPos, if_pos hirq, if_pos hirq,
      execs_succ_during hi (hrun.pen _ rfl) 0, State.touchedWhole_pen hirq]
    rfl
  | false =>
    obtain ⟨b, hraw⟩ := execs_raw hi (done := fun v => done v.valid) hrun.sample r s
    rw [State.checkSteps, checkSteps, State.touchedPos, if_neg (by simp [hirq]),
      if_neg (by simp [hirq]), State.touchedWhole_sample hirq]
    exact ⟨_, b, s.readRawWhole.1, hraw⟩

/-- A stored measurement is followed by a presence check (R193). -/
theorem measurementDone_during (m : Sample) (q : Seq) (p : Pos) (r : Results) (w : State) :
    measurementDone m (w.during (q.moveTo p r)) = (w.storeMeasurement q.i m).during
      (q.moveTo ((w.storeMeasurement q.i m).touchedPos .check) r) := rfl

/-- The sequencer goes from a check to the next measurement, or to the commit (R193, R194). -/
theorem checkDone_during (t : Bool) (q : Seq) (p : Pos) (r : Results) (w : State) :
    checkDone t (w.during (q.moveTo p r)) =
      if t = true ∧ q.i + 1 < w.build.mMax then
        w.during (q.nextMeasurement.moveTo (.raw .discard .csOn) r)
      else w.during (q.moveTo .commit { r with complete := t }) := by
  cases t with
  | false => rfl
  | true => simp only [true_and]; rfl

section
variable {i : Instr} {q : Seq} {s : State}

/-- The steps of one round end where the whole round ends, its answer handed to `checkDone`
(R193). -/
theorem execs_gatherRound (hi : q.inFlight = some i) (hrun : RunsGather i) (hprec : s.prec ≠ 0#8)
    (r : Results) :
    ∃ p b v, execs i (measureSteps s + s.checkSteps)
        (s.during (q.moveTo (.raw .discard .csOn) r)) =
      .next (checkDone (s.gatherRound q.i).1 ((s.gatherRound q.i).2.during
        ((q.sampling s.prec.toNat).moveTo p (r.read b v)))) := by
  obtain ⟨b, v, hmeasure⟩ := execs_measure hi hrun.measure hprec r
  rw [measurementDone_during] at hmeasure
  obtain ⟨p, b', v', hcheck⟩ := execs_check_read (q := q.sampling s.prec.toNat) hi hrun.check
    (r.read b v) (s.measureInto q.i)
  rw [(s.measureInto_steady q.i).checkSteps] at hcheck
  exact ⟨p, b', v', (execs_add hmeasure _).trans hcheck⟩

end

theorem Steady.measureSteps {s t : State} (st : Steady s t) : measureSteps t = measureSteps s := by
  rw [Machine.measureSteps, Machine.measureSteps, st.prec, st.status]

/-- The steps of the command `i` from measurement `j` on, in the state `s` with `left` more to come,
end at its commit in the state of `g`: with the answer and the last index of `g` kept for the
commit, and the answer of READ_TOUCH's gate as it was (R193, R235). -/
def GatherRunsTo (i : Instr) (left j : Nat) (s : State) (g : Gathered) : Prop :=
  ∀ q : Seq, q.inFlight = some i → q.i = j → s.prec ≠ 0#8 → j + left = s.build.mMax - 1 →
    ∀ r : Results, ∃ (n : Nat) (q' : Seq) (r' : Results), g.k = j + n ∧ q'.inFlight = some i ∧
      q'.i + 1 = g.k ∧ r'.complete = g.complete ∧ r'.gate = r.gate ∧
      execs i (n * (measureSteps s + s.checkSteps)) (s.during (q.moveTo (.raw .discard .csOn) r)) =
        .next (g.state.during (q'.moveTo .commit r'))

/-- The sequencer runs `gather()` (R193). -/
theorem gatherFrom_gatherRunsTo {i : Instr} (hrun : RunsGather i) (left j : Nat) (s : State) :
    GatherRunsTo i left j s (State.gatherFrom left j s) := by
  refine State.gatherFrom_induct ?ends ?goesOn left j s
  case ends =>
    intro left j s hend q hi hj hprec hleft r
    subst hj
    obtain ⟨p, b, v, hround⟩ := execs_gatherRound hi hrun hprec r
    rw [checkDone_during, if_neg] at hround
    · exact ⟨1, q.sampling s.prec.toNat, { r.read b v with complete := (s.gatherRound q.i).1 }, rfl,
        hi, rfl, rfl, rfl, by rw [Nat.one_mul]; exact hround⟩
    · rw [(s.gatherRound_steady q.i).build]
      exact fun ⟨contact, hlt⟩ => hend ⟨contact, by rw [Seq.sampling_i] at hlt; omega⟩
  case goesOn =>
    intro left j s g contact rest q hi hj hprec hleft r
    subst hj
    obtain ⟨p, b, v, hround⟩ := execs_gatherRound hi hrun hprec r
    have st := s.gatherRound_steady q.i
    have more : (q.sampling s.prec.toNat).i + 1 < (s.gatherRound q.i).2.build.mMax := by
      rw [st.build, Seq.sampling_i]
      omega
    rw [checkDone_during, if_pos ⟨contact, more⟩] at hround
    obtain ⟨n, q', r', hk, hi', hlast, hcomplete, hgate, hrest⟩ :=
      rest (q.sampling s.prec.toNat).nextMeasurement hi rfl (st.prec ▸ hprec)
        (by rw [st.build]; omega) (r.read b v)
    rw [st.measureSteps, st.checkSteps] at hrest
    refine ⟨n + 1, q', r', by omega, hi', hlast, hcomplete, hgate, ?_⟩
    rw [Nat.succ_mul, Nat.add_comm]
    exact (execs_add hround _).trans hrest

/-! ### GATHER (R195) -/

theorem gather_runsGather (arg : Byte) : RunsGather (.gather arg) where
  measure :=
    { discard := fun p t hpos => by simp [stepOf, stepGather, gatherStep, hpos]
      sample := fun p t hpos => by simp [stepOf, stepGather, gatherStep, hpos] }
  check :=
    { pen := fun t hpos => by simp [stepOf, stepGather, gatherStep, hpos]
      sample := fun p t hpos => by simp [stepOf, stepGather, gatherStep, hpos] }

/-- The registers a gather commits are those of `gather()` when its last index and its answer are
kept (R195). -/
theorem withGathered_during {q : Seq} {r : Results} {g : Gathered} (touching : Bool) (p : Pos)
    (hlast : q.i + 1 = g.k) (hcomplete : r.complete = g.complete) :
    (g.state.during (q.moveTo p r)).withGathered touching =
      (g.registers touching).during (q.moveTo p r) := by
  rw [Gathered.registers, Gathered.median, ← hlast, ← hcomplete]
  rfl

/-- GATHER from acceptance to commit: the steps of one `gather()` and the commit of its answer
(R195). -/
theorem gather_endsAs (arg : Byte) {s : State} (idle : s.status.busy = false)
    (hinit : s.status.initDone = true) (hfree : s.status.csHeld = false) (hprec : s.prec ≠ 0#8) :
    ∃ t u, exec (.gather arg) s = .next t ∧ t.status.busy = true ∧
      execs (.gather arg) (s.noError.gatherWhole.k * (measureSteps s + s.checkSteps) + 1) t =
        .next u ∧
      u.EndsAs (s.noError.gatherWhole.registers s.noError.gatherWhole.complete) := by
  have haccept := exec_started (i := .gather arg) idle
    (check_eq_none rfl (fun _ => hinit) (fun _ => hfree) rfl) rfl fun _ => rfl
  obtain ⟨n, q, r, hk, hi, hlast, hcomplete, -, hgather⟩ :=
    gatherFrom_gatherRunsTo (gather_runsGather arg) (s.noError.build.mMax - 1) 0 s.noError
      (s.seq.started (.gather arg)) (s.seq.started_inFlight _) rfl hprec (Nat.zero_add _)
      s.seq.res
  rw [Nat.zero_add] at hk
  rw [← hk] at hgather
  have hstatus := s.noError.gatherWhole_steady.status
  have hbusy := (congrArg Status.busy hstatus).trans idle
  have herr := congrArg Status.err hstatus
  refine ⟨_, _, haccept, rfl,
    (execs_add hgather 1).trans (execs_succ_during hi (stepOf_commit rfl) 0), ?_⟩
  rw [commitOf, withGathered_during _ _ hlast hcomplete, State.gatherWhole, ← hcomplete]
  exact State.commit_during_endsAs (w := s.noError.gatherWhole.registers r.complete) hbusy herr _

/-- Settles O21: `measureSteps` and `checkSteps` are the obligation's steps of a round. -/
theorem gatherRunsItsPseudocode : Obligations.GatherRunsItsPseudocode := by
  unfold Obligations.GatherRunsItsPseudocode
  intro arg s idle hinit hfree hprec
  exact gather_endsAs arg idle hinit hfree hprec

/-! ### The transactions and PenSamples of a gather (R197) -/

/-- `count` grows by `k` in every presence check of the build `b` in the mode `mode`, with the pen
line or without it. -/
def PerCheck (b : Params) (mode : Option TransportMode) (useIrq : Bool) (count : List Event → Nat)
    (k : Nat) : Prop :=
  ∀ t : State, t.build = b → t.status.modeEff = mode → t.cfg.useIrq = useIrq →
    count t.touchedWhole.2.hist = count t.hist + k

section
variable {b : Params} {mode : Option TransportMode} {count : List Event → Nat} {k check : Nat}

/-- A presence check is one PenSample or one transaction (R154). -/
theorem PerTransaction.perCheck (hcount : PerTransaction b mode count k)
    (hpen : ∀ h level, count (h ++ [.pen level]) = count h + check) (useIrq : Bool) :
    PerCheck b mode useIrq count (if useIrq then check else k) := by
  intro t hb hmode hirq
  cases useIrq with
  | true => rw [State.touchedWhole_pen hirq]; exact hpen _ _
  | false => rw [State.touchedWhole_sample hirq]; exact hcount t hb hmode

section
variable {s : State} (hcount : PerTransaction s.build s.status.modeEff count k)
  (hcheck : PerCheck s.build s.status.modeEff s.cfg.useIrq count check)
include hcount hcheck

/-- A round of a gather is a measurement and a check (R193). -/
theorem State.gatherRound_count {t : State} (st : Steady s t) (i : Nat) :
    count (t.gatherRound i).2.hist = count t.hist + ((1 + s.prec.toNat) * k + check) := by
  have st' := st.trans (t.measureInto_steady i)
  have hmeasure := State.measureWhole_count hcount st.build (congrArg Status.modeEff st.status)
  have hchecked := hcheck (t.measureInto i) st'.build (congrArg Status.modeEff st'.status)
    (congrArg Cfg.useIrq st'.cfg)
  rw [State.gatherRound, hchecked, State.measureInto_hist, hmeasure, st.prec, Nat.add_assoc]

/-- A gather of `k` measurements is as many rounds (R193). -/
theorem State.gatherFrom_count (left i : Nat) :
    count (State.gatherFrom left i s).state.hist + i * ((1 + s.prec.toNat) * k + check) =
      count s.hist + (State.gatherFrom left i s).k * ((1 + s.prec.toNat) * k + check) := by
  refine State.gatherFrom_induct (motive := fun _ i t g => Steady s t →
    count g.state.hist + i * ((1 + s.prec.toNat) * k + check) =
      count t.hist + g.k * ((1 + s.prec.toNat) * k + check)) ?ends ?goesOn left i s
    (SerialStep.rfl' s).steady
  case ends =>
    intro left i t _ st
    rw [State.gatherRound_count hcount hcheck st, Nat.succ_mul]
    omega
  case goesOn =>
    intro left i t g _ rest st
    have hrest := rest (st.trans (t.gatherRound_steady i))
    rw [State.gatherRound_count hcount hcheck st, Nat.succ_mul] at hrest
    omega

theorem State.gatherWhole_count : count s.gatherWhole.state.hist =
    count s.hist + s.gatherWhole.k * ((1 + s.prec.toNat) * k + check) := by
  rw [State.gatherWhole, ← State.gatherFrom_count hcount hcheck, Nat.zero_mul, Nat.add_zero]

end

end

theorem penSamples_perTransaction (b : Params) (mode : Option TransportMode) :
    PerTransaction b mode penSamples 0 := fun t _ _ => by
  obtain ⟨ev, hist, -, hpen, -⟩ := t.readRawWhole_events
  rw [hist, penSamples_append, hpen]

theorem State.touchedWhole_addsEvents (s : State) : s.hist <+: s.touchedWhole.2.hist := by
  cases hirq : s.cfg.useIrq with
  | true => rw [State.touchedWhole_pen hirq]; exact ⟨_, rfl⟩
  | false => rw [State.touchedWhole_sample hirq]; exact s.readRawWhole_addsEvents

theorem State.gatherRound_addsEvents (i : Nat) (s : State) : s.hist <+: (s.gatherRound i).2.hist :=
  s.measureWhole_addsEvents.trans (s.measureInto i).touchedWhole_addsEvents

/-- A gather only adds events to the history (R296). -/
theorem State.gatherFrom_addsEvents (left i : Nat) (s : State) :
    s.hist <+: (State.gatherFrom left i s).state.hist :=
  State.gatherFrom_induct (motive := fun _ _ s g => s.hist <+: g.state.hist)
    (fun _ i s _ => s.gatherRound_addsEvents i)
    (fun _ i s _ _ rest => (s.gatherRound_addsEvents i).trans rest) left i s

/-- The events of a gather of `k` measurements: `k · (1 + PREC.N)` transactions, and for its checks
`k` more or `k` PenSamples (R197). -/
theorem State.gatherWhole_events (s : State) :
    ∃ ev, s.gatherWhole.state.hist = s.hist ++ ev ∧
      transactions ev = s.gatherWhole.k * (1 + s.prec.toNat) +
        (if s.cfg.useIrq then 0 else s.gatherWhole.k) ∧
      penSamples ev = if s.cfg.useIrq then s.gatherWhole.k else 0 := by
  obtain ⟨ev, hev⟩ : s.hist <+: s.gatherWhole.state.hist := s.gatherFrom_addsEvents _ 0
  have hcs := transactions_perTransaction s.build s.status.modeEff
  have hpen := penSamples_perTransaction s.build s.status.modeEff
  have hcsCount := State.gatherWhole_count hcs
    (hcs.perCheck (check := 0) (fun h _ => transactions_append h _) s.cfg.useIrq)
  have hpenCount := State.gatherWhole_count hpen
    (hpen.perCheck (check := 1) (fun h _ => penSamples_append h _) s.cfg.useIrq)
  rw [← hev, transactions_append, Nat.add_left_cancel_iff] at hcsCount
  rw [← hev, penSamples_append, Nat.add_left_cancel_iff] at hpenCount
  refine ⟨ev, hev.symm, ?_⟩
  rw [hcsCount, hpenCount]
  exact ⟨by split <;> ring, by split <;> ring⟩

/-- NMEAS holds the number of measurements of a gather in a legal build (R41, R193). -/
theorem State.gatherWhole_nMeas {s : State} (legal : s.build.Legal) :
    (BitVec.ofNat 5 s.gatherWhole.k).toNat = s.gatherWhole.k ∧ 1 ≤ s.gatherWhole.k ∧
      s.gatherWhole.k ≤ s.build.mMax ∧
      (s.gatherWhole.complete = true → s.gatherWhole.k = s.build.mMax) := by
  have hpos := legal.mMax_pos
  have hle := legal.mMax_le
  obtain ⟨hlow, hhigh, hall⟩ := s.gatherFrom_k (s.build.mMax - 1) 0
  rw [← State.gatherWhole] at hlow hhigh hall
  exact ⟨by rw [BitVec.toNat_ofNat]; omega, by omega, by omega, fun h => by rw [hall h]; omega⟩

/-- Settles O39: the events of `gather()`, and the registers that its commit writes. -/
theorem gatherCountsItsTransactions : Obligations.GatherCountsItsTransactions := by
  unfold Obligations.GatherCountsItsTransactions
  intro arg s idle hinit hfree hprec legal
  obtain ⟨t, u, haccept, -, hu, hends⟩ := gather_endsAs arg idle hinit hfree hprec
  obtain ⟨ev, hev, hcs, hpen⟩ := s.noError.gatherWhole_events
  obtain ⟨hn, hlow, hhigh, hall⟩ := State.gatherWhole_nMeas (s := s.noError) legal
  have hbusy := (congrArg Status.busy s.noError.gatherWhole_steady.status).trans idle
  have hstatus : u.status =
      (s.noError.gatherWhole.registers s.noError.gatherWhole.complete).status :=
    (congrArg State.status hends.same :)
  have hnMeas : u.status.nMeas.toNat = s.noError.gatherWhole.k := by rw [hstatus]; exact hn
  refine ⟨t, _, u, ev, haccept, hu, by rw [hstatus]; exact hbusy,
    (congrArg State.hist hends.same).trans hev, ?_⟩
  rw [hnMeas, hstatus]
  exact ⟨hcs, hpen, hlow, hhigh, hall, rfl⟩

end Sys2Proof.Machine
end

section
/-! PROOFS. Statements of 45_affine.md: the rounded operations as `fl` of the exact results, `trunc`
and the clamp, the reset matrix, and the two commands SET_CAL and TRANSFORM. -/

namespace Sys2Proof.Machine

/-! ### `fl` of a number (R10) -/

/-- Rounding depends on the quotient alone, not on the fraction that it is written as. -/
theorem roundNearestEven_mul_right (num den : Nat) {c : Nat} (hc : 0 < c) :
    roundNearestEven (num * c) (den * c) = roundNearestEven num den := by
  simp only [roundNearestEven, Nat.mul_div_mul_right _ _ hc, Nat.mul_mod_mul_right, ← Nat.mul_assoc,
    Nat.mul_lt_mul_right hc]

theorem flUnits_mul_right (num den : Nat) {c : Nat} (hc : 0 < c) :
    flUnits (num * c) (den * c) = flUnits num den := by
  rw [flUnits, Nat.mul_div_mul_right _ _ hc, Nat.mul_right_comm den c,
    roundNearestEven_mul_right _ _ hc, flUnits]

theorem fl_mul_right (neg : Bool) (num den : Nat) {c : Nat} (hc : 0 < c) :
    fl neg (num * c) (den * c) = fl neg num den := by
  rw [fl_eq, flUnits_mul_right num den hc, fl_eq]

/-- Equal fractions of units round to the same value. -/
theorem fl_congr (neg : Bool) {num den num' den' : Nat} (hd : 0 < den) (hd' : 0 < den')
    (h : num * den' = num' * den) : fl neg num den = fl neg num' den' := by
  rw [← fl_mul_right neg num den hd', h, Nat.mul_comm den den', fl_mul_right neg num' den' hd]

theorem fl_zero (neg : Bool) (den : Nat) : fl neg 0 den = .fin neg 0 := by
  have hround (d : Nat) : roundNearestEven 0 d = 0 := by simp [roundNearestEven]
  have hunits : flUnits 0 den = 0 := by rw [flUnits, hround, Nat.zero_mul]
  rw [fl_eq, hunits, if_neg (not_le.2 (by positivity))]

/-- `fl` of one fraction of units that the magnitude of `x` is, is `fl` of `x`. -/
theorem isFl_fl {neg : Bool} {x : Rat} {num den : Nat} (hd : 0 < den)
    (h : (num : Rat) = |x| * 2 ^ 149 * den) : IsFl neg x (fl neg num den) := by
  intro num' den' hd' h'
  refine fl_congr neg hd hd' ?_
  have hcross : (num : Rat) * den' = num' * den := by rw [h, h']; ring
  exact_mod_cast hcross

/-! ### The number that a sign and units are -/

theorem unitsValue_false (n : Nat) : unitsValue false n = (n : Rat) / 2 ^ 149 := by
  simp [unitsValue]

/-- The other sign is the opposite number. -/
theorem unitsValue_not (a : Bool) (n : Nat) : unitsValue (!a) n = -unitsValue a n := by
  cases a <;> simp [unitsValue, neg_div]

theorem unitsValue_true (n : Nat) : unitsValue true n = -((n : Rat) / 2 ^ 149) := by
  rw [← unitsValue_false]; exact unitsValue_not false n

theorem unitsValue_add (a : Bool) (n m : Nat) :
    unitsValue a n + unitsValue a m = unitsValue a (n + m) := by
  unfold unitsValue; push_cast; ring

/-- Units of opposite signs cancel. -/
theorem unitsValue_add_not (a : Bool) {n m : Nat} (h : m ≤ n) :
    unitsValue a n + unitsValue (!a) m = unitsValue a (n - m) := by
  rw [unitsValue_not, ← sub_eq_add_neg, sub_eq_iff_eq_add, unitsValue_add, Nat.sub_add_cancel h]

theorem abs_unitsValue (a : Bool) (n : Nat) : |unitsValue a n| = (n : Rat) / 2 ^ 149 := by
  have hpos : (0 : Rat) ≤ (n : Rat) / 2 ^ 149 := by positivity
  cases a
  · rw [unitsValue_false, abs_of_nonneg hpos]
  · rw [unitsValue_true, abs_neg, abs_of_nonneg hpos]

theorem unitsValue_eq_zero {a : Bool} {n : Nat} : unitsValue a n = 0 ↔ n = 0 := by
  rw [← abs_eq_zero, abs_unitsValue]
  simp

/-- The sign is the sign of the number, unless it is 0. -/
theorem decide_unitsValue_neg (a : Bool) {n : Nat} (hn : n ≠ 0) :
    decide (unitsValue a n < 0) = a := by
  have hpos : (0 : Rat) < (n : Rat) / 2 ^ 149 := by positivity
  cases a
  · simpa [unitsValue_false] using hpos.le
  · simpa [unitsValue_true] using hpos

/-! ### The operations on finite values (R213) -/

/-- The exact product is `n · m / 2^149` units, which `⊗` rounds once. -/
theorem Fp.mul_isFl (a b : Bool) (n m : Nat) :
    IsFl (a ^^ b) (unitsValue a n * unitsValue b m) (Fp.mul (.fin a n) (.fin b m)) := by
  rw [Fp.mul]
  refine isFl_fl (by positivity) ?_
  rw [abs_mul, abs_unitsValue, abs_unitsValue]
  push_cast
  ring

/-- The exact quotient is `n · 2^149 / m` units, which `⊘` rounds once. -/
theorem Fp.div_isFl (a b : Bool) (n : Nat) {m : Nat} (hm : m ≠ 0) :
    IsFl (a ^^ b) (unitsValue a n / unitsValue b m) (Fp.div (.fin a n) (.fin b m)) := by
  rw [Fp.div, if_neg hm]
  refine isFl_fl (Nat.pos_of_ne_zero hm) ?_
  rw [abs_div, abs_unitsValue, abs_unitsValue]
  push_cast
  field_simp
  ring

/-- The exact sum of two finite values as a sign and units, and what `⊕` makes of it. -/
theorem Fp.add_fin (a b : Bool) (n m : Nat) :
    ∃ neg k, unitsValue a n + unitsValue b m = unitsValue neg k ∧
      Fp.add (.fin a n) (.fin b m) = if k = 0 then .fin (a && b) 0 else fl neg k 1 := by
  obtain rfl | rfl := Bool.eq_or_eq_not b a
  · refine ⟨b, n + m, unitsValue_add b n m, ?_⟩
    rw [Fp.add, if_pos rfl, Bool.and_self]
    split_ifs with hk
    · rw [hk, fl_zero]
    · rfl
  · obtain h | rfl | h := Nat.lt_trichotomy m n
    · refine ⟨a, n - m, unitsValue_add_not a h.le, ?_⟩
      simp [Fp.add, h, Nat.sub_ne_zero_of_lt h]
    · exact ⟨a, 0, by simpa using unitsValue_add_not a le_rfl, by simp [Fp.add]⟩
    · refine ⟨!a, m - n, ?_, ?_⟩
      · rw [add_comm]
        simpa using unitsValue_add_not (!a) h.le
      · simp [Fp.add, h, h.not_gt, Nat.sub_ne_zero_of_lt h]

theorem Fp.add_isFl {a b : Bool} {n m : Nat} (h : unitsValue a n + unitsValue b m ≠ 0) :
    IsFl (decide (unitsValue a n + unitsValue b m < 0)) (unitsValue a n + unitsValue b m)
      (Fp.add (.fin a n) (.fin b m)) := by
  obtain ⟨neg, k, hsum, hadd⟩ := Fp.add_fin a b n m
  rw [hsum] at h ⊢
  have hk : k ≠ 0 := fun hk => h (unitsValue_eq_zero.2 hk)
  rw [hadd, if_neg hk, decide_unitsValue_neg neg hk]
  refine isFl_fl one_pos ?_
  rw [abs_unitsValue]
  field_simp
  simp

theorem Fp.add_of_sum_zero {a b : Bool} {n m : Nat} (h : unitsValue a n + unitsValue b m = 0) :
    Fp.add (.fin a n) (.fin b m) = .fin (a && b) 0 := by
  obtain ⟨neg, k, hsum, hadd⟩ := Fp.add_fin a b n m
  rw [hadd, if_pos (unitsValue_eq_zero.1 (hsum.symm.trans h))]

/-! ### The values of patterns (R10, R213) -/

/-- A pattern whose exponent is 255 is an infinity or a NaN. -/
theorem f32_of_exponent_255 {w : Word} (h : w.extractLsb' 23 8 = 255#8) :
    f32 w = if w.extractLsb' 0 23 = 0#23 then .inf (w.getLsbD 31) else .nan := by
  simp [f32, h, ← BitVec.toNat_inj]

/-- An exponent of 0 is a subnormal or a zero, a whole number of units. -/
theorem f32_of_exponent_zero {w : Word} (h : w.extractLsb' 23 8 = 0#8) :
    f32 w = .fin (w.getLsbD 31) (w.extractLsb' 0 23).toNat := by
  simp only [f32, h]; rfl

/-- Any other exponent but 255 is a normal number, with the leading bit of its significand. -/
theorem f32_of_normal {w : Word} (h0 : w.extractLsb' 23 8 ≠ 0#8)
    (h255 : w.extractLsb' 23 8 ≠ 255#8) : f32 w = .fin (w.getLsbD 31)
      ((2 ^ 23 + (w.extractLsb' 0 23).toNat) * 2 ^ ((w.extractLsb' 23 8).toNat - 1)) := by
  have hexpo {k : Nat} (h : w.extractLsb' 23 8 ≠ BitVec.ofNat 8 k) (hk : k < 256) :
      (w.extractLsb' 23 8).toNat ≠ k := fun he => h (BitVec.eq_of_toNat_eq (by simp [he]; omega))
  rw [f32, if_neg (hexpo h255 (by decide)), if_neg (hexpo h0 (by decide))]

/-- Every pattern but those of exponent 255 is a finite value, with IEEE 754's number. -/
theorem f32_of_exponent_ne {w : Word} (h : w.extractLsb' 23 8 ≠ 255#8) :
    ∃ n, f32 w = .fin (w.getLsbD 31) n ∧ unitsValue (w.getLsbD 31) n = binary32Value w := by
  by_cases h0 : w.extractLsb' 23 8 = 0#8
  · refine ⟨_, f32_of_exponent_zero h0, ?_⟩
    rw [unitsValue, binary32Value, if_pos h0, mul_div_assoc]
  · refine ⟨_, f32_of_normal h0 h, ?_⟩
    obtain ⟨e, he⟩ : ∃ e, (w.extractLsb' 23 8).toNat = e + 1 :=
      Nat.exists_eq_succ_of_ne_zero fun he => h0 (BitVec.eq_of_toNat_eq he)
    rw [unitsValue, binary32Value, if_neg h0, he, Nat.add_sub_cancel]
    push_cast
    ring

/-- A u12 is exact (R213). -/
theorem Fp.ofU12_value (v : U12) :
    ∃ n, Fp.ofU12 v = .fin false n ∧ unitsValue false n = (v.toNat : Rat) := by
  refine ⟨_, rfl, ?_⟩
  rw [unitsValue_false]
  push_cast
  ring

/-- A NaN as the second operand gives NaN. -/
theorem Fp.nan_right (u : Fp) : Fp.mul u .nan = .nan ∧ Fp.add u .nan = .nan := by
  cases u <;> exact ⟨rfl, rfl⟩

/-- Settles O41: the formula by definition, the values of the patterns, and each operation. -/
theorem transformIsRoundedLeftToRight : Obligations.TransformIsRoundedLeftToRight := by
  unfold Obligations.TransformIsRoundedLeftToRight
  refine ⟨fun _ _ _ => rfl, fun w => ⟨f32_of_exponent_ne, f32_of_exponent_255⟩, Fp.ofU12_value,
    fun a b n m => ⟨Fp.mul_isFl a b n m, Fp.add_isFl, Fp.add_of_sum_zero, Fp.div_isFl a b n⟩,
    fun a b n u => ?special⟩
  case special =>
    obtain ⟨hmul, hadd⟩ := Fp.nan_right u
    exact ⟨rfl, hmul, rfl, hadd, rfl, rfl, rfl, rfl, rfl, fun _ => rfl⟩

/-! ### `trunc` and the clamp (R10, R214) -/

/-- `trunc` rounds toward zero: down from 0 on, up below. -/
theorem truncUnits_eq (neg : Bool) (n : Nat) : truncUnits neg n =
    if 0 ≤ unitsValue neg n then ⌊unitsValue neg n⌋ else ⌈unitsValue neg n⌉ := by
  have hfloor : ⌊(n : Rat) / 2 ^ 149⌋ = ((n / 2 ^ 149 : Nat) : Int) := by
    exact_mod_cast Rat.floor_natCast_div_natCast n (2 ^ 149)
  cases neg
  · rw [unitsValue_false, if_pos (by positivity), hfloor]
    rfl
  · have htrunc : truncUnits true n = -⌊(n : Rat) / 2 ^ 149⌋ := by rw [hfloor]; rfl
    rw [htrunc, unitsValue_true]
    split_ifs with h
    · have hzero : (n : Rat) / 2 ^ 149 = 0 := le_antisymm (neg_nonneg.1 h) (by positivity)
      simp [hzero]
    · rw [Int.ceil_neg]

/-- Sixteen bits of an integer are its remainder, never negative. -/
theorem toNat_ofInt16 (i : Int) : ((BitVec.ofInt 16 i).toNat : Int) = i % 65536 := by
  rw [BitVec.toNat_ofInt]
  omega

theorem clampInt_range (i : Int) :
    ((clampInt .range i).toNat : Int) = if i < 0 ∨ 60000 < i then 0 else i := by
  rw [clampInt, clampLimit, Nat.cast_ofNat]
  split_ifs
  · rfl
  · rw [toNat_ofInt16]
    omega

theorem clampInt_wrap16 (i : Int) :
    ((clampInt .wrap16 i).toNat : Int) = if 60000 < i % 65536 then 0 else i % 65536 := by
  rw [clampInt, clampLimit, Nat.cast_ofNat]
  split_ifs
  · rfl
  · exact toNat_ofInt16 i

/-- The modes agree where the low 16 bits of an integer outside 0..60000 are above 60000 too. -/
theorem clampInt_modes_agree {i : Int} (hlow : -5535 ≤ i) (hhigh : i ≤ 65535) :
    clampInt .range i = clampInt .wrap16 i := by
  have hrange := clampInt_range i
  have hwrap := clampInt_wrap16 i
  refine BitVec.eq_of_toNat_eq ?_
  split_ifs at hrange hwrap <;> omega

/-- Settles O42: `toCoord` of a finite value is the clamp of its `trunc`. -/
theorem clampKeepsOnlyPlausibleCoordinates : Obligations.ClampKeepsOnlyPlausibleCoordinates := by
  unfold Obligations.ClampKeepsOnlyPlausibleCoordinates
  exact ⟨truncUnits_eq, fun _ => ⟨rfl, rfl, rfl⟩, fun _ _ => clampInt_range _,
    fun _ _ => clampInt_wrap16 _, fun _ _ => clampInt_modes_agree⟩

/-! ### The reset matrix (R215) -/

/-- A legal RESCALE is a finite value other than 0 (R7, R212). -/
theorem f32_of_finiteNonzero {w : Word} (h : finiteNonzero w = true) :
    ∃ n, n ≠ 0 ∧ f32 w = .fin (w.getLsbD 31) n := by
  obtain ⟨h255, hmagnitude⟩ : w.extractLsb' 23 8 ≠ 255#8 ∧ w.extractLsb' 0 31 ≠ 0#31 := by
    simpa [finiteNonzero] using h
  by_cases h0 : w.extractLsb' 23 8 = 0#8
  · refine ⟨_, fun hfrac => hmagnitude ?_, f32_of_exponent_zero h0⟩
    rw [← BitVec.extractLsb'_append_extractLsb'_eq_extractLsb' (show 23 = 0 + 23 from rfl), h0,
      show w.extractLsb' 0 23 = 0#23 from BitVec.eq_of_toNat_eq hfrac]
    rfl
  · exact ⟨_, by positivity, f32_of_normal h0 h255⟩

theorem Fp.zero_mul (a b : Bool) (m : Nat) : Fp.mul (.fin a 0) (.fin b m) = .fin (a ^^ b) 0 := by
  rw [Fp.mul, Nat.zero_mul, fl_zero]

theorem Fp.zero_div (a b : Bool) {m : Nat} (hm : m ≠ 0) :
    Fp.div (.fin a 0) (.fin b m) = .fin (a ^^ b) 0 := by
  rw [Fp.div, if_neg hm, Nat.zero_mul, fl_zero]

/-- With coefficients of +0 the dividend is +0, so an axis is a zero with the sign of RESCALE. -/
theorem xformAxis_zero {rescale : Word} (h : finiteNonzero rescale = true) (x y : U12) :
    xformAxis rescale 0#32 0#32 0#32 x y = .fin (rescale.getLsbD 31) 0 := by
  obtain ⟨n, hn, hrescale⟩ := f32_of_finiteNonzero h
  have hcoefficient : f32 0#32 = .fin false 0 := f32_of_exponent_zero rfl
  have hsum : Fp.add (.fin false 0) (.fin false 0) = .fin false 0 :=
    Fp.add_of_sum_zero (by simp [unitsValue])
  have hproduct (v : U12) : Fp.mul (.fin false 0) (Fp.ofU12 v) = .fin false 0 :=
    Fp.zero_mul false false _
  rw [xformAxis, hcoefficient, hproduct, hproduct, hsum, hsum, hrescale, Fp.zero_div _ _ hn,
    Bool.false_xor]

/-- Settles O43: each axis is a quotient of 0, and 0 lies within the clamp of either mode. -/
theorem resetMatrixGivesZero : Obligations.ResetMatrixGivesZero := by
  unfold Obligations.ResetMatrixGivesZero
  intro b v h
  have htrunc (neg : Bool) : truncUnits neg 0 = 0 := by cases neg <;> rfl
  have hcoord (neg : Bool) : toCoord b.clampMode (.fin neg 0) = 0#16 := by
    rw [toCoord, htrunc]
    cases b.clampMode <;> rfl
  simp only [xform, Matrix.zero, xformAxis_zero h, hcoord]

/-! ### SET_CAL and TRANSFORM (R211, R217) -/

/-- Settles O12: the command meets no check and only commits. -/
theorem setCalCopiesTheStagedMatrix : Obligations.SetCalCopiesTheStagedMatrix := by
  unfold Obligations.SetCalCopiesTheStagedMatrix
  intro arg s idle
  have haccept := exec_started (i := .setCal arg) idle (check_eq_none rfl nofun nofun rfl) rfl
    fun _ => rfl
  refine ⟨_, haccept, rfl, ?_⟩
  rw [exec_commit rfl (s.seq.started_inFlight (.setCal arg)) rfl]
  conv_rhs => rw [State.eq_of_idle idle]
  rfl

/-- TRANSFORM meets no check, and is accepted with TIN latched (R84, R217). -/
theorem exec_transform (arg : Byte) {s : State} (idle : s.status.busy = false) :
    exec (.transform arg) s = .next (s.noError.during
      (({ s.seq with tin := s.tin }.started (.transform arg)).moveTo .commit s.seq.res)) := by
  have hcheck : check (.transform arg) s = .none := check_eq_none rfl nofun nofun rfl
  rw [exec_of_check_none idle hcheck, State.accept, locksCfg, Bool.or_false]
  rfl

/-- Settles O14: the command only commits, with the TIN that it has latched. -/
theorem transformWritesPos : Obligations.TransformWritesPos := by
  unfold Obligations.TransformWritesPos
  intro arg s idle
  refine ⟨_, exec_transform arg idle, rfl, ?_⟩
  rw [exec_commit rfl (Seq.started_inFlight (.transform arg) { s.seq with tin := s.tin }) rfl]
  conv_rhs => rw [State.eq_of_idle idle]
  rfl

end Sys2Proof.Machine
end

section
/-! PROOFS. Statements of 46_controller.md: NOP and INIT, and the sequencer's run of READ_TOUCH from
acceptance to commit with its transactions and PenSamples. -/

namespace Sys2Proof.Machine

/-! ### NOP and INIT (R231–R233) -/

/-- Settles O10: the command meets no check and only commits. -/
theorem nopOnlyClearsErr : Obligations.NopOnlyClearsErr := by
  unfold Obligations.NopOnlyClearsErr
  intro arg s idle
  have haccept := exec_started (i := .nop arg) idle (check_eq_none rfl nofun nofun rfl) rfl
    fun _ => rfl
  refine ⟨_, haccept, rfl, ?_⟩
  rw [exec_commit rfl (s.seq.started_inFlight (.nop arg)) rfl]
  conv_rhs => rw [State.eq_of_idle idle]
  rfl

/-- A first INIT meets no check, and is accepted with CFG latched and locked (R84, R232). -/
theorem exec_init (arg : Byte) {s : State} (idle : s.status.busy = false)
    (unlocked : s.cfgLocked = false) :
    exec (.init arg) s = .next ({ s.noError with cfgLocked := true }.during
      (({ s.seq with cfg := s.cfg }.started (.init arg)).moveTo .commit s.seq.res)) := by
  have hcheck : check (.init arg) s = .none := check_eq_none unlocked nofun nofun rfl
  rw [exec_of_check_none idle hcheck, State.accept, locksCfg, Bool.or_true]
  rfl

/-- Settles O11: the commit resolves the mode of the CFG that the acceptance has latched. -/
theorem initSelectsTheEngine : Obligations.InitSelectsTheEngine := by
  unfold Obligations.InitSelectsTheEngine
  intro arg s idle unlocked
  refine ⟨_, exec_init arg idle unlocked, rfl, rfl, ?_⟩
  rw [exec_commit rfl (Seq.started_inFlight (.init arg) { s.seq with cfg := s.cfg }) rfl]
  conv_rhs => rw [State.eq_of_idle idle]
  rfl

/-! ### READ_TOUCH as a whole function (R235, R236) -/

/-- Where the gate finds a touch READ_TOUCH commits a gather and its coordinate (R235). -/
theorem State.readTouchWhole_of_touched {s : State} (touched : s.touchedWhole.1 = true) :
    s.readTouchWhole = { s.touchedWhole.2.gatherWhole.registers true with
      coord := xform s.touchedWhole.2.gatherWhole.state.build
        s.touchedWhole.2.gatherWhole.state.calAct s.touchedWhole.2.gatherWhole.median } := by
  rw [State.readTouchWhole, if_pos touched]

/-- Where the gate finds none READ_TOUCH ends after it (R236). -/
theorem State.readTouchWhole_of_untouched {s : State} (untouched : s.touchedWhole.1 = false) :
    s.readTouchWhole = { s.touchedWhole.2 with
      status := { s.touchedWhole.2.status with touching := false, complete := false } } := by
  rw [State.readTouchWhole, if_neg (by simp [untouched])]

/-- The gate and the gather after it leave STATUS and the configuration alone (R235). -/
theorem State.gatedGather_steady (s : State) :
    Steady s s.touchedWhole.2.gatherWhole.state :=
  s.touchedWhole_serial.steady.trans (State.gatherWhole_steady _)

theorem State.readTouchWhole_busy (s : State) :
    s.readTouchWhole.status.busy = s.status.busy := by
  cases hgate : s.touchedWhole.1 with
  | true =>
    rw [State.readTouchWhole_of_touched hgate]
    exact (congrArg Status.busy s.gatedGather_steady.status :)
  | false =>
    rw [State.readTouchWhole_of_untouched hgate]
    exact (congrArg Status.busy s.touchedWhole_serial.steady.status :)

/-! ### The sequencer's READ_TOUCH -/

theorem readTouch_runsGate (arg : Byte) : RunsCheck (.readTouch arg) .gate gateDone where
  pen t hpos := by simp [stepOf, stepReadTouch, hpos]
  sample p t hpos := by simp [stepOf, stepReadTouch, hpos]

theorem readTouch_runsGather (arg : Byte) : RunsGather (.readTouch arg) where
  measure :=
    { discard := fun p t hpos => by simp [stepOf, stepReadTouch, gatherStep, hpos]
      sample := fun p t hpos => by simp [stepOf, stepReadTouch, gatherStep, hpos] }
  check :=
    { pen := fun t hpos => by simp [stepOf, stepReadTouch, gatherStep, hpos]
      sample := fun p t hpos => by simp [stepOf, stepReadTouch, gatherStep, hpos] }

/-- The sequencer goes from the gate to the gather, or to the commit of R236. -/
theorem gateDone_during (b : Bool) (q : Seq) (p : Pos) (r : Results) (w : State) :
    gateDone b (w.during (q.moveTo p r)) =
      w.during (q.moveTo (if b then .raw .discard .csOn else .commit) { r with gate := b }) := rfl

/-- READ_TOUCH's commit after a gate that has found no touch (R236). -/
theorem readTouchCommit_untouched {s w : State} (st : Steady s w) (idle : s.status.busy = false)
    (herr : s.status.err = .none) {q : Seq} (hgate : q.res.gate = false) :
    (readTouchCommit (w.during q)).EndsAs
      { w with status := { w.status with touching := false, complete := false } } := by
  rw [readTouchCommit, if_neg (by simp [State.during, hgate])]
  exact State.commit_during_endsAs
    (w := { w with status := { w.status with touching := false, complete := false } })
    ((congrArg Status.busy st.status).trans idle) ((congrArg Status.err st.status).trans herr) q

/-- READ_TOUCH's commit of a gather whose last index and answer are kept (R235). -/
theorem readTouchCommit_touched {s : State} {g : Gathered} (st : Steady s g.state)
    (idle : s.status.busy = false) (herr : s.status.err = .none) {q : Seq} {r : Results}
    (hgate : r.gate = true) (hlast : q.i + 1 = g.k) (hcomplete : r.complete = g.complete) :
    (readTouchCommit (g.state.during (q.moveTo .commit r))).EndsAs
      { g.registers true with coord := xform g.state.build g.state.calAct g.median } := by
  have hcommit (t : State) (h : t.seq.res.gate = true) : readTouchCommit t =
      { t.withGathered true with
        coord := xform t.build t.calAct (t.withGathered true).med }.commit .none := by
    rw [readTouchCommit, if_pos h]
    rfl
  rw [hcommit _ hgate, withGathered_during true .commit hlast hcomplete]
  exact State.commit_during_endsAs
    (w := { g.registers true with coord := xform g.state.build g.state.calAct g.median })
    ((congrArg Status.busy st.status).trans idle) ((congrArg Status.err st.status).trans herr) _

/-- READ_TOUCH from acceptance to commit: the steps of the gate, those of the gather where the gate
has found a touch, and the commit (R235, R236). -/
theorem readTouch_endsAs (arg : Byte) {s : State} (idle : s.status.busy = false)
    (hinit : s.status.initDone = true) (hfree : s.status.csHeld = false)
    (hprec : s.noError.touchedWhole.1 = true → s.prec ≠ 0#8) :
    ∃ t u, exec (.readTouch arg) s = .next t ∧ t.status.busy = true ∧
      execs (.readTouch arg) (s.checkSteps + 1 +
        if s.noError.touchedWhole.1 then
          s.noError.touchedWhole.2.gatherWhole.k * (measureSteps s + s.checkSteps)
        else 0) t = .next u ∧
      u.EndsAs s.noError.readTouchWhole := by
  have hi := s.seq.started_inFlight (.readTouch arg)
  have haccept := exec_started (i := .readTouch arg) idle
    (check_eq_none rfl (fun _ => hinit) (fun _ => hfree) rfl) rfl fun _ => rfl
  obtain ⟨p, r, -, hgate⟩ := execs_check hi (readTouch_runsGate arg) s.seq.res s.noError
  rw [gateDone_during] at hgate
  have st := s.noError.touchedWhole_serial.steady
  cases htouched : s.noError.touchedWhole.1 with
  | false =>
    rw [htouched] at hgate
    rw [State.readTouchWhole_of_untouched htouched]
    exact ⟨_, _, haccept, rfl,
      (execs_add hgate 1).trans (execs_succ_during hi (stepOf_commit rfl) 0),
      readTouchCommit_untouched st idle rfl rfl⟩
  | true =>
    rw [htouched] at hgate
    rw [State.readTouchWhole_of_touched htouched]
    obtain ⟨n, q, r', hk, hi', hlast, hcomplete, hkept, hgather⟩ :=
      gatherFrom_gatherRunsTo (readTouch_runsGather arg) (s.noError.touchedWhole.2.build.mMax - 1) 0
        s.noError.touchedWhole.2 (s.seq.started (.readTouch arg)) hi rfl
        (by rw [st.prec]; exact hprec htouched) (Nat.zero_add _) { r with gate := true }
    rw [Nat.zero_add] at hk
    rw [← hk, st.measureSteps, st.checkSteps] at hgather
    refine ⟨_, _, haccept, rfl, ?_, readTouchCommit_touched s.noError.gatedGather_steady idle rfl
      hkept hlast hcomplete⟩
    rw [if_pos rfl, Nat.add_assoc, Nat.add_comm 1]
    exact (execs_add hgate _).trans
      ((execs_add hgather 1).trans (execs_succ_during hi' (stepOf_commit rfl) 0))

/-- Settles O22: `measureSteps` and `checkSteps` are the obligation's steps of a round. -/
theorem readTouchRunsItsPseudocode : Obligations.ReadTouchRunsItsPseudocode := by
  unfold Obligations.ReadTouchRunsItsPseudocode
  intro arg s idle hinit hfree hprec
  obtain ⟨t, u, haccept, hbusy, hu, hends⟩ :=
    readTouch_endsAs arg idle hinit hfree fun _ => hprec
  exact ⟨t, _, u, haccept, hbusy, hu, hends, rfl⟩

/-! ### An undetected touch (R236) -/

/-- The events of a presence check: the level that it answers by, or one transaction (R154). -/
theorem State.touchedWhole_events (s : State) : ∃ ev, s.touchedWhole.2.hist = s.hist ++ ev ∧
    (s.cfg.useIrq = true → ev = [.pen (!s.touchedWhole.1)]) ∧
    (s.cfg.useIrq = false →
      transactions ev = 1 ∧ ev.length = rawSteps s.status.modeEff) := by
  cases hirq : s.cfg.useIrq with
  | true =>
    rw [State.touchedWhole_pen hirq]
    exact ⟨_, rfl, fun _ => by rw [Bool.not_not]; rfl, nofun⟩
  | false =>
    obtain ⟨ev, hev, hcs, -, hlen⟩ := s.readRawWhole_events
    rw [State.touchedWhole_sample hirq]
    exact ⟨ev, hev, nofun, fun _ => ⟨hcs, hlen⟩⟩

/-- A presence check that finds chip select high leaves it high (R137, R152). -/
theorem State.touchedWhole_csN {s : State} (high : s.pins.csN = true) :
    s.touchedWhole.2.pins.csN = true := by
  cases hirq : s.cfg.useIrq with
  | true => rw [State.touchedWhole_pen hirq]; exact high
  | false => rw [State.touchedWhole_sample hirq]; rfl

/-- A presence check on a free bus leaves the serial lines at the levels it finds (R104, R107). -/
theorem State.touchedWhole_pins {s : State} (high : s.pins.csN = true)
    (low : s.pins.sclk = false ∧ s.pins.mosi = false) : s.touchedWhole.2.pins = s.pins := by
  have idle {p : Pins} (hcs : p.csN = true) (hlow : p.sclk = false ∧ p.mosi = false) :
      p = ⟨true, false, false, p.oe⟩ := by cases p; simp_all
  have hserial := s.touchedWhole_serial
  rw [idle (State.touchedWhole_csN high) (hserial.low low), hserial.oe, ← idle high low]

/-- What a command has changed that ends with the STATUS `st` after the primitives from `s` to `w`:
STATUS and the serial side (R57). -/
theorem SerialStep.endsAs_frame {s w u : State} {st : Status} (h : SerialStep s w)
    (ends : u.EndsAs { w with status := st }) :
    u = { s with
      status := st, env := w.env, hist := w.hist, pins := w.pins, engines := w.engines
      sync := w.sync, seq := u.seq } :=
  (congrArg (fun v : State => { v with seq := u.seq }) ends.same).trans
    (congrArg (fun v : State => { v with status := st, seq := u.seq }) h.frame)

/-- Settles O44: READ_TOUCH ends after the gate, whose primitives change the serial side alone. -/
theorem undetectedTouchCostsTheGate : Obligations.UndetectedTouchCostsTheGate := by
  unfold Obligations.UndetectedTouchCostsTheGate
  intro arg s idle hinit hfree untouched
  obtain ⟨t, u, haccept, hbusy, hu, hends⟩ :=
    readTouch_endsAs arg idle hinit hfree (by simp [untouched])
  have hserial := s.noError.touchedWhole_serial
  obtain ⟨ev, hev, hpen, hraw⟩ := s.noError.touchedWhole_events
  have hpins (inv : s.Inv) : s.noError.touchedWhole.2.pins = s.pins := by
    obtain ⟨-, -, -, hcs⟩ := inv.idle idle
    exact State.touchedWhole_pins (s := s.noError) (by rw [hfree] at hcs; exact hcs) inv.clockIdle
  rw [untouched] at hu hpen
  rw [State.readTouchWhole_of_untouched untouched, hserial.steady.status] at hends
  refine ⟨t, u, ev, haccept, hbusy, hu, hends, ?_⟩
  rw [hserial.endsAs_frame hends]
  exact ⟨rfl, rfl, rfl, rfl, rfl, rfl, rfl, rfl, rfl, rfl, rfl, rfl, rfl, rfl, hpins, hev, hpen,
    hraw⟩

/-! ### The transport calls of a transaction (R136, R137) -/

/-- An event without the bits it carries. -/
def Event.kind : Event → Event
  | .xfer _ _ => .xfer 0#8 0#8
  | .read12 _ => .read12 0#12
  | .cs a => .cs a
  | .delay => .delay
  | .pen level => .pen level

/-- The kinds of the events of one `readAxis` (R136). -/
def axisKinds (mode : Option TransportMode) : List Event :=
  if mode = some .hw then [.xfer 0#8 0#8, .delay, .xfer 0#8 0#8, .xfer 0#8 0#8]
  else [.xfer 0#8 0#8, .delay, .read12 0#12]

/-- The kinds of the events of one transaction (R137). -/
def transactionKinds (mode : Option TransportMode) : List Event :=
  .cs true :: axisKinds mode ++ axisKinds mode ++ [.cs false]

theorem State.readAxisWhole_kinds (c : Byte) (s : State) :
    ∃ ev, (s.readAxisWhole c).2.hist = s.hist ++ ev ∧
      ev.map Event.kind = axisKinds s.status.modeEff := by
  unfold axisKinds
  split
  · next hw =>
    obtain ⟨e, b1, b2, hist, -⟩ := State.readAxisWhole_events_hw hw c
    exact ⟨_, hist, rfl⟩
  · next sw =>
    obtain ⟨e, v, hist, -⟩ := State.readAxisWhole_events_sw sw c
    exact ⟨_, hist, rfl⟩

theorem State.readRawWhole_kinds (s : State) :
    ∃ ev, s.readRawWhole.2.hist = s.hist ++ ev ∧
      ev.map Event.kind = transactionKinds s.status.modeEff := by
  have st := ((s.setCs true).readAxisWhole_serial s.build.cmdX).1.steady
  obtain ⟨x, hx, xkinds⟩ := (s.setCs true).readAxisWhole_kinds s.build.cmdX
  obtain ⟨y, hy, ykinds⟩ :=
    ((s.setCs true).readAxisWhole s.build.cmdX).2.readAxisWhole_kinds s.build.cmdY
  rw [st.status] at ykinds
  rw [State.setCs_status] at xkinds ykinds
  refine ⟨.cs true :: x ++ y ++ [.cs false], by simp [State.readRawWhole, hx, hy], ?_⟩
  simp [transactionKinds, xkinds, ykinds, Event.kind]

/-- The XFER, READ12, DELAY and CS(0) events of one transaction (R237). -/
theorem transactionKinds_counts (mode : Option TransportMode) :
    transportCalls (transactionKinds mode) = (if mode = some .hw then 6 else 4) ∧
      read12Calls (transactionKinds mode) = (if mode = some .hw then 0 else 2) ∧
      (transactionKinds mode).countP (· == .delay) = 2 ∧
      (transactionKinds mode).countP (· == .cs false) = 1 := by
  unfold transactionKinds axisKinds
  split <;> exact ⟨rfl, rfl, rfl, rfl⟩

/-- Events of certain kinds are as many in every transaction. -/
theorem countP_perTransaction {p : Event → Bool} (hkind : ∀ e, p e.kind = p e) (b : Params)
    (mode : Option TransportMode) :
    PerTransaction b mode (List.countP p) ((transactionKinds mode).countP p) := by
  intro t _ hmode
  obtain ⟨ev, hist, hev⟩ := t.readRawWhole_kinds
  rw [hist, List.countP_append, ← hmode, ← hev, List.countP_map,
    show p ∘ Event.kind = p from funext hkind]

/-! ### The transactions and PenSamples of READ_TOUCH (R237) -/

/-- READ_TOUCH is a check and, where it finds a touch, the rounds of a gather (R237). -/
theorem State.readTouchWhole_count {s : State} {count : List Event → Nat} {k check : Nat}
    (hcount : PerTransaction s.build s.status.modeEff count k)
    (hcheck : PerCheck s.build s.status.modeEff s.cfg.useIrq count check) :
    count s.readTouchWhole.hist = count s.hist + (check +
      if s.touchedWhole.1 then
        s.touchedWhole.2.gatherWhole.k * ((1 + s.prec.toNat) * k + check)
      else 0) := by
  have hgate := hcheck s rfl rfl rfl
  have st := s.touchedWhole_serial.steady
  cases htouched : s.touchedWhole.1 with
  | false =>
    rw [State.readTouchWhole_of_untouched htouched]
    exact hgate
  | true =>
    have hgather := State.gatherWhole_count (s := s.touchedWhole.2) (count := count) (k := k)
      (check := check) (by rwa [st.build, st.status]) (by rwa [st.build, st.status, st.cfg])
    rw [hgate, st.prec, Nat.add_assoc] at hgather
    rw [State.readTouchWhole_of_touched htouched]
    exact hgather

/-- READ_TOUCH only adds events to the history (R296). -/
theorem State.readTouchWhole_addsEvents (s : State) : s.hist <+: s.readTouchWhole.hist := by
  have hgate := s.touchedWhole_addsEvents
  cases htouched : s.touchedWhole.1 with
  | false => rw [State.readTouchWhole_of_untouched htouched]; exact hgate
  | true =>
    rw [State.readTouchWhole_of_touched htouched]
    exact hgate.trans (State.gatherFrom_addsEvents _ 0 _)

section
variable {s : State} {ev : List Event} (hev : s.readTouchWhole.hist = s.hist ++ ev)
include hev

/-- The transactions of READ_TOUCH: those of a gate without the pen line and of the rounds after
it (R237). -/
theorem State.readTouchWhole_transactions : transactions ev =
    (if s.cfg.useIrq then 0 else 1) +
      if s.touchedWhole.1 then
        s.touchedWhole.2.gatherWhole.k *
          ((1 + s.prec.toNat) * 1 + if s.cfg.useIrq then 0 else 1)
      else 0 := by
  have hcount := transactions_perTransaction s.build s.status.modeEff
  have h := State.readTouchWhole_count hcount
    (hcount.perCheck (check := 0) (fun h _ => transactions_append h _) s.cfg.useIrq)
  rwa [hev, transactions_append, Nat.add_left_cancel_iff] at h

/-- The PenSamples of READ_TOUCH: those of a gate with the pen line and of the checks after it
(R237). -/
theorem State.readTouchWhole_penSamples : penSamples ev =
    (if s.cfg.useIrq then 1 else 0) +
      if s.touchedWhole.1 then
        s.touchedWhole.2.gatherWhole.k *
          ((1 + s.prec.toNat) * 0 + if s.cfg.useIrq then 1 else 0)
      else 0 := by
  have hcount := penSamples_perTransaction s.build s.status.modeEff
  have h := State.readTouchWhole_count hcount
    (hcount.perCheck (check := 1) (fun h _ => penSamples_append h _) s.cfg.useIrq)
  rwa [hev, penSamples_append, Nat.add_left_cancel_iff] at h

/-- READ_TOUCH's events of kinds other than PEN are those of its transactions (R237). -/
theorem State.readTouchWhole_countP {p : Event → Bool} (hkind : ∀ e, p e.kind = p e)
    (hpen : ∀ level, p (.pen level) = false) :
    ev.countP p = (transactionKinds s.status.modeEff).countP p * transactions ev := by
  have hcount := countP_perTransaction hkind s.build s.status.modeEff
  have h := State.readTouchWhole_count hcount
    (hcount.perCheck (check := 0) (fun h level => by simp [List.countP_append, hpen]) s.cfg.useIrq)
  rw [hev, List.countP_append, Nat.add_left_cancel_iff] at h
  rw [h, State.readTouchWhole_transactions hev]
  split <;> split <;> ring

end

/-- TOUCHING is the gate's answer (R235, R236). -/
theorem State.readTouchWhole_touching (s : State) :
    s.readTouchWhole.status.touching = s.touchedWhole.1 := by
  cases htouched : s.touchedWhole.1 with
  | false => rw [State.readTouchWhole_of_untouched htouched]
  | true => rw [State.readTouchWhole_of_touched htouched]; rfl

/-- In a legal build NMEAS holds the number of measurements that READ_TOUCH has gathered (R41). -/
theorem State.readTouchWhole_nMeas {s : State} (legal : s.build.Legal)
    (touched : s.touchedWhole.1 = true) :
    s.readTouchWhole.status.nMeas.toNat = s.touchedWhole.2.gatherWhole.k := by
  rw [State.readTouchWhole_of_touched touched]
  have st := s.touchedWhole_serial.steady
  exact (State.gatherWhole_nMeas (s := s.touchedWhole.2) (st.build.symm ▸ legal)).1

/-- Settles O45: the events of the whole function, counted by `readTouchWhole_count`. -/
theorem readTouchCountsItsTransactions : Obligations.ReadTouchCountsItsTransactions := by
  unfold Obligations.ReadTouchCountsItsTransactions
  intro arg s idle hinit hfree hprec legal
  obtain ⟨t, u, haccept, -, hu, hends⟩ := readTouch_endsAs arg idle hinit hfree fun _ => hprec
  obtain ⟨ev, hev⟩ := s.noError.readTouchWhole_addsEvents
  have hstatus : u.status = s.noError.readTouchWhole.status := (congrArg State.status hends.same :)
  obtain ⟨hxfer, hread12, hdelay, hcs⟩ := transactionKinds_counts s.status.modeEff
  have hcalls {p : Event → Bool} (hkind : ∀ e, p e.kind = p e)
      (hpen : ∀ level, p (.pen level) = false) :
      ev.countP p = (transactionKinds s.status.modeEff).countP p * transactions ev :=
    State.readTouchWhole_countP (s := s.noError) hev.symm hkind hpen
  refine ⟨t, _, u, ev, haccept, hu, ?idle, (congrArg State.hist hends.same).trans hev.symm, ?table,
    ?xfer, ?read12, ?delay, ?cs⟩
  case idle => rw [hstatus, State.readTouchWhole_busy]; exact idle
  case table =>
    rw [State.readTouchWhole_transactions hev.symm, State.readTouchWhole_penSamples hev.symm,
      hstatus, State.readTouchWhole_touching]
    rw [show s.noError.cfg = s.cfg from rfl, show s.noError.prec = s.prec from rfl]
    cases htouched : s.noError.touchedWhole.1 with
    | false => cases s.cfg.useIrq <;> rfl
    | true =>
      rw [State.readTouchWhole_nMeas (s := s.noError) legal htouched]
      cases s.cfg.useIrq with
      | false => simp [Nat.mul_add, Nat.add_assoc]
      | true => simp
  case xfer => rw [← hxfer]; exact hcalls (fun e => by cases e <;> rfl) fun _ => rfl
  case read12 => rw [← hread12]; exact hcalls (fun e => by cases e <;> rfl) fun _ => rfl
  case delay => rw [hcalls (fun e => by cases e <;> rfl) fun _ => rfl, hdelay]
  case cs => rw [hcalls (fun e => by cases e <;> rfl) fun _ => rfl, hcs, Nat.one_mul]

end Sys2Proof.Machine
end

section
/-! PROOFS. Statements of 60_exceptions.md: the checks that a CMD write meets, its drop while a
command is in flight, and that no step of the block is a fault. -/

namespace Sys2Proof.Machine

/-! ### A CMD write (R252–R259) -/

/-- Settles O7: on the host's turn the write is dropped, and a command in flight has ERR = 0. -/
theorem busyCmdWriteSetsOnlyOverrun : Obligations.BusyCmdWriteSetsOnlyOverrun := by
  unfold Obligations.BusyCmdWriteSetsOnlyOverrun
  intro s e addr w rest hs ha hr hb ht
  have hm : s.nextMove = { s with env := e }.hostMove (.write addr w) rest :=
    State.nextMove_of_hostTurn hs (.inr ⟨by simp [State.sequencerReady, hb, hr], ht⟩)
  refine ⟨?dropped, fun h => ?noError⟩
  case dropped =>
    simp [step, hm, State.hostMove, State.setScript, State.hostWrite, State.writeCmd, State.dropCmd,
      ha, hr, hb]
  case noError =>
    obtain ⟨-, i, -, ok⟩ := h.inFlight hb
    exact ok.noError

/-- R257 for a word of the fields `op` and `arg`: the code that it meets while the block is idle. -/
def checkFields (op arg : Byte) (s : State) : ErrCode :=
  if IsReservedOp op then .illegalOp
  else if op = 0x01#8 ∧ s.cfgLocked = true then .reinit
  else if op ∈ [0x02#8, 0x03#8, 0x04#8, 0x08#8, 0x09#8, 0x0A#8, 0x10#8, 0x11#8, 0x12#8, 0x13#8,
      0x14#8, 0x15#8] ∧ s.status.initDone = false then .notInit
  else if (op ∈ [0x02#8, 0x09#8, 0x0A#8, 0x15#8] ∨
      (op ∈ [0x03#8, 0x04#8, 0x08#8] ∧ s.cfg.useIrq = false)) ∧ s.status.csHeld = true then .busHeld
  else if op = 0x06#8 ∧ arg = 0#8 then .badArg
  else .none

/-- The fields of a command meet the checks of the command. -/
theorem checkFields_eq_check (i : Instr) (s : State) :
    checkFields i.opcode i.arg s = check i s := by
  cases i <;> simp [checkFields, check, IsReservedOp, isReinit, needsInit, isTransaction, isBadArg,
    Instr.opcode, Instr.arg]

/-- A reserved OP is refused when it is written (R256). -/
theorem State.hostWrite_reserved {s : State} {addr : Byte} {w : Word} {err : DecodeError}
    (hr : s.rstN = true) (ha : wordAddr addr = 0x08) (idle : s.status.busy = false)
    (herr : decode w = .error err) : s.hostWrite addr w = .done (s.raiseCmdError .illegalOp) := by
  simp [State.hostWrite, State.writeCmd, hr, ha, idle, herr]

/-- An idle block refuses a command with the code that it meets, and changes ERR alone (R252). -/
theorem exec_of_check_ne_none {i : Instr} {s : State} (idle : s.status.busy = false)
    (hc : check i s ≠ .none) : exec i s = .next (s.raiseCmdError (check i s)) := by
  rw [exec_eq_command, State.command_idle idle, State.submit, if_neg hc]

/-- A CMD write while idle is one step: accepted when the word meets no check, refused with the code
that it meets (R252). -/
theorem step_of_idle_cmdWrite {s : State} {addr : Byte} {w : Word} {rest : List HostAction}
    (hs : s.env.script = .write addr w :: rest) (ha : wordAddr addr = 0x08) (hr : s.rstN = true)
    (idle : s.status.busy = false) :
    (checkFields (w.extractLsb' 0 8) (w.extractLsb' 8 8) s = .none ∧
      ∃ i, step s = .next ((s.setScript rest).accept i (startPos i s))) ∨
    (checkFields (w.extractLsb' 0 8) (w.extractLsb' 8 8) s ≠ .none ∧
      step s = .next ((s.setScript rest).raiseCmdError
        (checkFields (w.extractLsb' 0 8) (w.extractLsb' 8 8) s))) := by
  obtain ⟨-, i, hi, hop, harg⟩ | ⟨hop, herr⟩ :=
    decodeFields_cases (w.extractLsb' 0 8) (w.extractLsb' 8 8)
  · have hrun : step s = exec i (s.setScript rest) :=
      stepRunsTheCommand.1 s addr w rest i hs ha hr idle hi
    rw [← hop, ← harg, checkFields_eq_check]
    by_cases hc : check i s = .none
    · exact .inl ⟨hc, i, hrun.trans (exec_of_check_none (s := s.setScript rest) idle hc)⟩
    · exact .inr ⟨hc, hrun.trans (exec_of_check_ne_none (s := s.setScript rest) idle hc)⟩
  · have hm : s.nextMove = s.hostMove (.write addr w) rest :=
      State.nextMove_of_hostTurn hs (.inl ⟨by simp [State.sequencerReady, idle], rfl⟩)
    have hw := State.hostWrite_reserved (s := s.setScript rest) hr ha idle herr
    rw [checkFields, if_pos hop]
    exact .inr ⟨nofun, by simp only [step, hm, State.hostMove, hw]⟩

/-- Settles O8: the code is `checkFields` of the word's fields. -/
theorem cmdWriteMeetsTheChecks : Obligations.CmdWriteMeetsTheChecks := by
  unfold Obligations.CmdWriteMeetsTheChecks
  intro s addr w rest hs ha hr idle code hcode
  obtain rfl : code = checkFields (w.extractLsb' 0 8) (w.extractLsb' 8 8) s := hcode
  obtain ⟨hnone, i, hstep⟩ | ⟨hcode, hstep⟩ := step_of_idle_cmdWrite hs ha hr idle
  · exact ⟨fun h => absurd hnone h, fun _ => ⟨_, hstep, rfl, rfl⟩⟩
  · exact ⟨fun _ => hstep, fun h => absurd h hcode⟩

/-! ### No step is a fault (R250) -/

/-- At a position of its own pseudocode a command has a step. -/
theorem stepOf_isSome {i : Instr} {s : State} {b : Bool} {m : Option TransportMode}
    (hpos : posOk b m i s.seq.pos = true) : ∃ t, stepOf i s = some t := by
  rw [← Option.isSome_iff_exists]
  revert hpos
  cases i
  case readAxis =>
    cases hp : s.seq.pos with
    | axis p => simp [stepOf, stepReadAxis_axis hp]
    | _ => simp [stepOf, stepReadAxis, hp, posOk, readAxisPosOk]
  case nop | init | setCal | setPrec | transform | csAssert | csDeassert | xferWrite | xferRead =>
    simp only [stepOf, stepNop, stepInit, stepSetCal, stepSetPrec, stepTransform, stepCsAssert,
      stepCsDeassert, stepXferWrite, stepXferRead, posOk, commitOnly, csPosOk, exchangePosOk]
    cases s.seq.pos <;> simp
  case readRaw | isTouched | waitTouch | waitRelease | measure | gather | readTouch =>
    simp only [stepOf, stepReadRaw, stepIsTouched, stepWait, stepMeasure, stepGather, stepReadTouch,
      gatherStep, posOk, sampledPosOk]
    rcases s.seq.pos with _ | _ | _ | _ | ⟨_ | _ | _ | _ | _, p⟩ | (_ | _ | _ | _ | _) | _ <;> simp

/-- A host action answers a state: at once, or by running the command that it writes to CMD while
the block is idle (R84). -/
theorem State.hostMove_answers (a : HostAction) (rest : List HostAction) (s : State) :
    (∃ t, s.hostMove a rest = .done t) ∨
      ∃ i u t, s.hostMove a rest = .run i u ∧ exec i u = .next t := by
  obtain ⟨t, ht, -⟩ | ⟨i, hi⟩ := s.hostMove_cases a rest
  · exact .inl ⟨t, ht⟩
  · obtain ⟨-, -, idle⟩ := State.hostMove_run hi
    exact .inr ⟨i, _, _, hi,
      (exec_eq_command i _).trans (State.command_idle (s := s.setScript rest) idle)⟩

/-- Settles O55: a command in flight stands at a position of its own pseudocode, and every host
action answers a state. -/
theorem stepNeverStops : Obligations.StepNeverStops := by
  unfold Obligations.StepNeverStops
  intro s h
  obtain ⟨hturn, e, -, hm⟩ | ⟨-, a, rest, e, -, -, hm⟩ | ⟨-, -, hm⟩ := s.nextMove_cases
  · simp only [State.nextIsSequencer, State.sequencerReady, Bool.and_eq_true] at hturn
    obtain ⟨⟨hb, -⟩, -⟩ := hturn
    obtain ⟨-, i, hi, ok⟩ := h.inFlight hb
    obtain ⟨t, ht⟩ := stepOf_isSome (s := { s with env := e }) ok.position
    exact ⟨t, (step_of_sequencerMove hi hm).trans
      ((exec_iff_stepOf (s := { s with env := e }) hb hi).2 ht)⟩
  · obtain ⟨t, ht⟩ | ⟨i, u, t, hu, ht⟩ := { s with env := e }.hostMove_answers a rest
    · exact ⟨t, by simp only [step, hm, ht]⟩
    · exact ⟨t, by simp only [step, hm, hu, ht]⟩
  · exact ⟨s, by simp only [step, hm]⟩

end Sys2Proof.Machine
end

section
/-! PROOFS. Statements of 70_reset_and_hazards.md: reset and the block held in it, the invariant
right after reset, and the serial side before INIT. -/

namespace Sys2Proof.Machine

/-! ### Reset (R280–R282) -/

/-- Settles O51: the host has the step, and what it does is its action's move. -/
theorem resetAndHeldInReset : Obligations.ResetAndHeldInReset := by
  unfold Obligations.ResetAndHeldInReset
  refine ⟨fun s e rest he => ?reset, fun s addr w rest hr => ?held⟩
  case reset =>
    have hm (a : HostAction) (hs : s.env.script = a :: rest) :
        s.nextMove = { s with env := e }.hostMove a rest := by
      refine State.nextMove_of_hostTurn hs ?_
      obtain ⟨hb | hr, he⟩ | ⟨hb, hr, ht⟩ := he
      · exact .inl ⟨by simp [State.sequencerReady, hb], he⟩
      · exact .inl ⟨by simp [State.sequencerReady, hr], he⟩
      · exact .inr ⟨by simp [State.sequencerReady, hb, hr], ht⟩
    refine ⟨fun hs => ?_, fun hs => ?_, fun hs => ?_⟩
    all_goals rw [step, hm _ hs]; rfl
  case held =>
    have hm (a : HostAction) (hs : s.env.script = a :: rest) : s.nextMove = s.hostMove a rest :=
      State.nextMove_of_hostTurn hs (.inl ⟨by simp [State.sequencerReady, hr], rfl⟩)
    refine ⟨fun hs => ?write, fun hs => ?read⟩
    case write => simp [step, hm _ hs, State.hostMove, State.hostWrite, hr, State.setScript]
    case read =>
      simp [step, hm _ hs, State.hostMove, State.hostRead, State.memRead, State.gotRead, hr,
        State.setScript]

/-- The build that State.reset takes is legal whatever the OPEN values are (R7). -/
theorem Config.build_legal : Config.build.Legal where
  mMax_pos := by decide
  mMax_le := by decide
  rescale := by
    unfold Config.build
    split_ifs with h
    · exact h
    · decide
  cmd_ne := by
    have hgap := Config.openCmdYGap.isLt
    unfold Config.build
    bv_omega
  hwDiv_even := Nat.mul_mod_right ..
  hwDiv_pos := Nat.le_mul_of_pos_right 2 (Nat.succ_pos _)
  swHalf := Nat.succ_pos _
  tSettle := Nat.succ_pos _

/-- Settles O53: a reset of a legal build meets the invariant. -/
theorem resetMeetsTheInvariant : Obligations.ResetMeetsTheInvariant :=
  resetOf_inv _ Config.build_legal [] [] Env.empty

/-! ### Before INIT (R23, R284) -/

/-- What the invariant holds of the command in flight. -/
theorem State.Inv.inFlightOk {s : State} {i : Instr} (h : s.Inv) (hb : s.status.busy = true)
    (hi : s.seq.inFlight = some i) : s.InFlightOk i := by
  obtain ⟨-, j, hj, ok⟩ := h.inFlight hb
  obtain rfl : j = i := Option.some.inj (hj.symm.trans hi)
  exact ok

/-- From `s` to `t` nothing happens on the serial side, no event and no level taken, and INIT does
not commit. -/
structure Quiet (s t : State) : Prop where
  hist : t.hist = s.hist
  miso : t.env.miso = s.env.miso
  pen : t.env.pen = s.env.pen
  initDone : t.status.initDone = true → s.status.initDone = true

theorem Quiet.trans {s t u : State} (h : Quiet s t) (k : Quiet t u) : Quiet s u :=
  ⟨k.hist.trans h.hist, k.miso.trans h.miso, k.pen.trans h.pen, h.initDone ∘ k.initDone⟩

theorem State.turn_quiet {s : State} {e : Env} (he : e = s.env ∨ e = s.env.takeTurn.2) :
    Quiet s { s with env := e } := by
  obtain rfl | rfl := he
  · exact ⟨rfl, rfl, rfl, id⟩
  · rw [s.env.takeTurn_frame]
    exact ⟨rfl, rfl, rfl, id⟩

theorem State.submit_quiet (i : Instr) (p : Pos) (s : State) : Quiet s (s.submit i p) := by
  unfold State.submit
  split <;> exact ⟨rfl, rfl, rfl, id⟩

theorem State.hostRead_quiet (addr : Byte) (s : State) : Quiet s (s.hostRead addr) := by
  obtain ⟨he, -⟩ := readsHaveNoSideEffect s addr
  rw [he]
  exact ⟨rfl, rfl, rfl, id⟩

theorem State.setScript_quiet (rest : List HostAction) (s : State) : Quiet s (s.setScript rest) :=
  ⟨rfl, rfl, rfl, id⟩

/-- A host action that runs no command is quiet. -/
theorem State.hostMove_quiet {s t : State} {a : HostAction} {rest : List HostAction}
    (hm : s.hostMove a rest = .done t) : Quiet s t := by
  cases a with
  | write addr w =>
    simp only [State.hostMove] at hm
    obtain ⟨-, he⟩ | ⟨-, -, he⟩ | ⟨-, -, ⟨-, he⟩ | ⟨-, i, -, he⟩ | ⟨-, err, -, he⟩⟩ :=
      (s.setScript rest).hostWrite_cases addr w
    all_goals rw [he] at hm; cases hm
    · exact s.setScript_quiet rest
    · rw [State.writeRegister_eq]
      exact ⟨rfl, rfl, rfl, id⟩
    all_goals exact ⟨rfl, rfl, rfl, id⟩
  | read addr => cases hm; exact (s.setScript_quiet _).trans (State.hostRead_quiet _ _)
  | waitIdle => cases hm; exact (s.setScript_quiet _).trans (State.hostRead_quiet _ _)
  | reset => cases hm; exact ⟨rfl, rfl, rfl, nofun⟩
  | setRst level =>
    cases level with
    | false => cases hm; exact ⟨rfl, rfl, rfl, nofun⟩
    | true => cases hm; exact ⟨rfl, rfl, rfl, id⟩

/-- A step is quiet, or it is the sequencer's (R6). -/
theorem step_quiet_or_runs {s t : State} (hs : step s = .next t) :
    Quiet s t ∨ ∃ e i, s.status.busy = true ∧ s.seq.inFlight = some i ∧
      Quiet s { s with env := e } ∧ stepOf i { s with env := e } = some t := by
  obtain ⟨hturn, e, he, hm⟩ | ⟨-, a, rest, e, -, he, hm⟩ | ⟨-, -, hm⟩ := s.nextMove_cases
  · obtain ⟨-, i, hb, hi, -⟩ := step_of_sequencerTurn hturn hs
    rw [step_of_sequencerMove hi hm] at hs
    exact .inr ⟨e, i, hb, hi, State.turn_quiet he,
      (exec_iff_stepOf (s := { s with env := e }) hb hi).1 hs⟩
  · have hq : Quiet s { s with env := e } :=
      State.turn_quiet (he.imp And.right fun ⟨_, ht⟩ => by rw [ht])
    refine .inl (hq.trans ?_)
    simp only [step, hm] at hs
    cases hh : { s with env := e }.hostMove a rest with
    | done u =>
      rw [hh] at hs
      cases hs
      exact State.hostMove_quiet hh
    | run i u =>
      rw [hh] at hs
      obtain ⟨rfl, -, idle⟩ := State.hostMove_run hh
      simp only [exec_eq_command, State.command_idle (s := { s with env := e }.setScript rest) idle]
        at hs
      cases hs
      exact (State.setScript_quiet rest _).trans (State.submit_quiet i _ _)
    | stuck f =>
      rw [hh] at hs
      cases hs
  · rw [step, hm] at hs
    cases hs
    exact .inl ⟨rfl, rfl, rfl, id⟩

/-- A command that does not need INIT only commits (R86). -/
theorem eq_commit_of_posOk {b : Bool} {m : Option TransportMode} {i : Instr} {p : Pos}
    (hn : needsInit i = false) (hp : posOk b m i p = true) : p = .commit := by
  cases i
  case nop | init | setCal | setPrec | transform => cases p <;> simp_all [posOk, commitOnly]
  all_goals cases hn

/-- Before INIT the command in flight stands at its commit (R253). -/
theorem State.InFlightOk.pos_of_not_initDone {s : State} {i : Instr} (ok : s.InFlightOk i)
    (hd : s.status.initDone = false) : s.seq.pos = .commit := by
  refine eq_commit_of_posOk (Bool.eq_false_iff.2 fun hn => ?_) ok.position
  simp [ok.initialised hn] at hd

/-- No commit but INIT's sets INIT_DONE, and none does anything on the serial side. -/
theorem commitOf_quiet {i : Instr} (hi : ∀ arg, i ≠ .init arg) (s : State) :
    Quiet s (commitOf i s) := by
  cases i
  case init arg => exact absurd rfl (hi arg)
  case readTouch =>
    simp only [commitOf, readTouchCommit]
    split <;> exact ⟨rfl, rfl, rfl, id⟩
  all_goals exact ⟨rfl, rfl, rfl, id⟩

/-- Settles O58: a step is quiet, or is the commit of the command in flight; INIT's commit too
leaves the serial side's inputs and history alone. -/
theorem nothingOnTheBusBeforeInit : Obligations.NothingOnTheBusBeforeInit := by
  unfold Obligations.NothingOnTheBusBeforeInit
  intro s t h hd hs
  have hoe : s.pins.oe = false := h.driven.trans hd
  have hquiet (q : Quiet s t) : t.hist = s.hist ∧ t.env.miso = s.env.miso ∧
      t.env.pen = s.env.pen ∧ s.pins.oe = false ∧ (t.status.initDone = true →
        s.status.busy = true ∧ ∃ arg, s.seq.inFlight = some (.init arg)) :=
    ⟨q.hist, q.miso, q.pen, hoe, fun ht => by simp [q.initDone ht] at hd⟩
  obtain q | ⟨e, i, hb, hi, q, hstep⟩ := step_quiet_or_runs hs
  · exact hquiet q
  · have hpos := (h.inFlightOk hb hi).pos_of_not_initDone hd
    rw [stepOf_commit (s := { s with env := e }) hpos, Option.some.injEq] at hstep
    subst hstep
    by_cases hinit : ∃ arg, i = .init arg
    · obtain ⟨arg, rfl⟩ := hinit
      exact ⟨q.hist, q.miso, q.pen, hoe, fun _ => ⟨hb, arg, hi⟩⟩
    · exact hquiet (q.trans (commitOf_quiet (not_exists.1 hinit) _))

end Sys2Proof.Machine
end

section
/-! PROOFS. Statements of 60_exceptions.md about runs (R298): the weak fairness of the sequencer,
and the end of every command but an unbounded wait. -/

namespace Sys2Proof.Machine

/-! ### One step of the host while a command is in flight -/

/-- `t` is `s` after a host access that is no reset, made while a command is in flight (R74): what
the command works on stays, and so does a locked CFG. -/
structure HostAccess (s t : State) : Prop where
  frame : t = { s with
    cfg := t.cfg, status := { s.status with cmdOvr := t.status.cmdOvr }
    waitLimit := t.waitLimit, tin := t.tin, cal := t.cal, rdata := t.rdata, reads := t.reads
    env := { s.env with
      script := t.env.script, pins := t.env.pins, freshPins := t.env.freshPins } }
  cfg : s.cfgLocked = true → t.cfg = s.cfg

theorem State.hostRead_access (rest : List HostAction) (addr : Byte) (s : State) :
    HostAccess s ((s.setScript rest).hostRead addr) := by
  obtain ⟨he, -⟩ := readsHaveNoSideEffect (s.setScript rest) addr
  rw [he]
  exact ⟨rfl, fun _ => rfl⟩

/-- While a command is in flight a host action that is no reset is an access (R85, R92). -/
theorem State.hostMove_access {s : State} {a : HostAction} (hb : s.status.busy = true)
    (hr : s.rstN = true) (ha : a ≠ .reset ∧ a ≠ .setRst false) (rest : List HostAction) :
    ∃ t, s.hostMove a rest = .done t ∧ HostAccess s t := by
  cases a with
  | write addr w =>
    obtain ⟨hlow, -⟩ | ⟨-, -, he⟩ | ⟨-, -, ⟨-, he⟩ | ⟨hidle, -⟩ | ⟨hidle, -⟩⟩ :=
      (s.setScript rest).hostWrite_cases addr w
    · cases hlow.symm.trans hr
    · refine ⟨_, he, ?_⟩
      rw [State.writeRegister_eq]
      exact ⟨rfl, fun hl => by simp [hl]⟩
    · exact ⟨_, he, rfl, fun _ => rfl⟩
    all_goals cases hidle.symm.trans hb
  | read addr => exact ⟨_, rfl, s.hostRead_access _ _⟩
  | waitIdle => exact ⟨_, rfl, s.hostRead_access _ _⟩
  | reset => exact absurd rfl ha.1
  | setRst level =>
    cases level with
    | false => exact absurd rfl ha.2
    | true =>
      refine ⟨_, rfl, ?_, fun _ => rfl⟩
      rw [State.driveReset, if_pos rfl, ← hr]
      rfl

theorem State.sequencerReady_of_busy {s : State} (hb : s.status.busy = true) (hr : s.rstN = true) :
    s.sequencerReady = true := by
  simp [State.sequencerReady, hb, hr]

/-- While a command is in flight the host's step takes a turn and is an access, unless it is a
reset. -/
theorem step_of_hostTurn {s : State} (hb : s.status.busy = true) (hr : s.rstN = true)
    (hturn : s.nextIsSequencer = false) (hreset : s.nextIsReset = false) :
    ∃ e t, s.env.takeTurn = (.host, e) ∧ step s = .next t ∧ HostAccess { s with env := e } t := by
  have hready := State.sequencerReady_of_busy hb hr
  obtain ⟨hn, -⟩ | ⟨-, a, rest, e, hscript, ⟨hn, -⟩ | ⟨-, ht⟩, hm⟩ | ⟨hn, -⟩ := s.nextMove_cases
  · cases hn.symm.trans hturn
  · cases hn.symm.trans hready
  · obtain ⟨t, hdone, hacc⟩ := State.hostMove_access (s := { s with env := e }) hb hr
      (not_reset_of_nextIsReset hscript hturn hreset) rest
    exact ⟨e, t, ht, by simp only [step, hm, hdone], hacc⟩
  · cases hn.symm.trans hready

/-- A reset ends the command in flight (R280, R281). -/
theorem step_of_nextIsReset {s : State} (hreset : s.nextIsReset = true) :
    s.nextIsSequencer = false ∧ ∃ t, step s = .next t ∧ t.status.busy = false := by
  unfold State.nextIsReset at hreset
  split at hreset
  case h_3 => cases hreset
  all_goals
    next rest hs =>
    have hturn : s.nextIsSequencer = false := by simpa using hreset
    refine ⟨hturn, ?_⟩
    obtain ⟨hn, -⟩ | ⟨-, a, rest', e, hscript, -, hm⟩ | ⟨-, hn, -⟩ := s.nextMove_cases
    · cases hn.symm.trans hturn
    · cases hs.symm.trans hscript
      exact ⟨_, by rw [step, hm]; rfl, rfl⟩
    · cases hs.symm.trans hn

/-! ### Weak fairness (R298) -/

/-- A bound of the host's turns before the sequencer's: the turns listed, then the host's number,
the next free one where none stands (entry 4). -/
def Env.hostTurnsLeft (e : Env) : Nat :=
  e.turns.length + e.hostMoves.getD (Config.freeHostMoves e.fresh)

/-- A turn of the host is one fewer of them. -/
theorem Env.hostTurnsLeft_lt {e e' : Env} (h : e.takeTurn = (.host, e')) :
    e'.hostTurnsLeft < e.hostTurnsLeft := by
  unfold Env.takeTurn at h
  split at h
  · next hturns =>
    cases h
    simp [Env.hostTurnsLeft, hturns]
  · next hturns =>
    split at h
    · next n hn =>
      cases n <;> cases h
      simp [Env.hostTurnsLeft, hturns, hn]
    · next hn =>
      cases hfree : Config.freeHostMoves e.fresh <;> rw [hfree] at h <;> cases h
      simp [Env.hostTurnsLeft, hturns, hn, hfree]

/-- R298 as an induction: what holds where the next step is the sequencer's or a reset, and holds
before a host access when it holds after it, holds whenever a command is in flight. -/
theorem fair_induction {P : State → Prop}
    (turn : ∀ s : State, s.status.busy = true → s.rstN = true →
      s.nextIsSequencer = true ∨ s.nextIsReset = true → P s)
    (host : ∀ (s t : State) (e : Env), s.status.busy = true → s.nextIsSequencer = false →
      step s = .next t → HostAccess { s with env := e } t → P t → P s)
    {s : State} (hb : s.status.busy = true) (hr : s.rstN = true) : P s := by
  induction hn : s.env.hostTurnsLeft using Nat.strong_induction_on generalizing s with
  | _ n ih =>
    subst hn
    cases hturn : s.nextIsSequencer with
    | true => exact turn s hb hr (.inl hturn)
    | false =>
      cases hreset : s.nextIsReset with
      | true => exact turn s hb hr (.inr hreset)
      | false =>
        obtain ⟨e, t, ht, hstep, hacc⟩ := step_of_hostTurn hb hr hturn hreset
        have hlt := Env.hostTurnsLeft_lt ht
        refine host s t e hb hturn hstep hacc (ih _ ?_ ?_ ?_ rfl)
        all_goals rw [hacc.frame]; assumption

/-- What holds of `s` and of the states that the next `n` steps from `t` pass holds of those that
the next `n + 1` steps from `s` pass. -/
theorem passed_succ {Q : State → Prop} {s t : State} {n : Nat} (hs : Q s) (hstep : step s = .next t)
    (ht : ∀ m u, m < n → steps m t = .next u → Q u) :
    ∀ m u, m < n + 1 → steps m s = .next u → Q u := by
  intro m u hm hu
  cases m with
  | zero => cases hu; exact hs
  | succ m =>
    simp only [steps, hstep] at hu
    exact ht m u (Nat.lt_of_succ_lt_succ hm) hu

/-- From `s` host steps alone lead to a state with BUSY = 1 whose next step is the sequencer's or a
reset. -/
def ReachesTurn (s : State) : Prop :=
  ∃ n t, steps n s = .next t ∧ t.status.busy = true ∧
    (t.nextIsSequencer = true ∨ t.nextIsReset = true) ∧
    ∀ m u, m < n → steps m s = .next u → u.nextIsSequencer = false

theorem ReachesTurn.of_step {s t : State} (hturn : s.nextIsSequencer = false)
    (hstep : step s = .next t) (h : ReachesTurn t) : ReachesTurn s := by
  obtain ⟨n, u, hu, hb, hend, hpassed⟩ := h
  exact ⟨n + 1, u, by simp only [steps, hstep, hu], hb, hend, passed_succ hturn hstep hpassed⟩

/-- Settles O5: by `fair_induction`, a host access being one step more. -/
theorem sequencerIsNotStarved : Obligations.SequencerIsNotStarved := by
  unfold Obligations.SequencerIsNotStarved
  intro s hb hr
  exact fair_induction (P := ReachesTurn) (fun s hb _ hturn =>
      ⟨0, s, rfl, hb, hturn, fun _ _ h => absurd h (Nat.not_lt_zero _)⟩)
    (fun _ _ _ _ hturn hstep _ h => h.of_step hturn hstep) hb hr

/-! ### Runs that end -/

/-- From `s` the block comes to BUSY = 0 with at most `k` steps of the sequencer. -/
def EndsWithin (k : Nat) (s : State) : Prop :=
  ∃ n t, steps n s = .next t ∧ t.status.busy = false ∧
    (∀ m u, m < n → steps m s = .next u → u.status.busy = true) ∧ sequencerSteps n s ≤ k

theorem EndsWithin.of_idle {s : State} (idle : s.status.busy = false) (k : Nat) : EndsWithin k s :=
  ⟨0, s, rfl, idle, fun _ _ h => absurd h (Nat.not_lt_zero _), Nat.zero_le k⟩

/-- One step before a run that ends; it counts when it is the sequencer's. -/
theorem EndsWithin.of_step {s t : State} {j k : Nat} (hb : s.status.busy = true)
    (hstep : step s = .next t) (h : EndsWithin j t)
    (hk : (if s.nextIsSequencer then 1 else 0) + j ≤ k) : EndsWithin k s := by
  obtain ⟨n, u, hu, idle, hpassed, hcount⟩ := h
  refine ⟨n + 1, u, by simp only [steps, hstep, hu], idle, passed_succ hb hstep hpassed, ?_⟩
  simp only [sequencerSteps, hstep]
  omega

/-! ### The primitives that a command in flight has left (R237, R178, R197) -/

/-- The primitives of a `readAxis` from the position `p` on (R136). -/
def axisLeft (mode : Option TransportMode) : AxisPos → Nat
  | .command => axisSteps mode
  | .settle => axisSteps mode - 1
  | .highByte => 2
  | .lowByte | .read12 => 1

/-- The primitives of a `readRaw` from the position `p` on (R137). -/
def rawLeft (mode : Option TransportMode) : RawPos → Nat
  | .csOn => rawSteps mode
  | .x p => axisLeft mode p + axisSteps mode + 1
  | .y p => axisLeft mode p + 1
  | .csOff => 1

/-- The most primitives of a gather from measurement `k` on (R197). -/
def State.roundsFrom (k : Nat) (s : State) : Nat :=
  (s.build.mMax - k) * (measureSteps s + s.checkSteps)

/-- The most primitives of a wait with `k` polls behind it (R157). -/
def State.pollsFrom (k : Nat) (s : State) : Nat :=
  (s.seq.limit.toNat - k) * s.checkSteps

/-- The primitives of a measurement with `k` samples read (R175). -/
def State.samplesFrom (k : Nat) (s : State) : Nat :=
  (s.prec.toNat - k) * rawSteps s.status.modeEff

/-- The most primitives of `i` after the measurement that it is taking. -/
def State.leftAfterMeasure (i : Instr) (s : State) : Nat :=
  if gathers i then s.checkSteps + s.roundsFrom (s.seq.i + 1) else 0

/-- The most primitives of `i` after the presence check that it is making. -/
def State.leftAfterCheck (i : Instr) (s : State) : Nat :=
  if gathers i then s.roundsFrom (s.seq.i + 1)
  else if waits i then s.pollsFrom (s.seq.p + 1)
  else 0

/-- The most primitives of `i` after the transaction or the PenSample for the use `u` that it stands
in. -/
def State.leftAfter (i : Instr) (s : State) : Use → Nat
  | .result => 0
  | .discard => s.samplesFrom 0 + s.leftAfterMeasure i
  | .sample => s.samplesFrom s.seq.j + s.leftAfterMeasure i
  | .check => s.leftAfterCheck i
  | .gate => s.roundsFrom s.seq.i

/-- The most primitives of `i` from the position `p` on, its commit not counted. -/
def State.leftFrom (i : Instr) (s : State) : Pos → Nat
  | .idle | .commit => 0
  | .setCs | .exchange => 1
  | .axis p => axisLeft s.status.modeEff p
  | .raw u p => rawLeft s.status.modeEff p + s.leftAfter i u
  | .pen u => 1 + s.leftAfter i u

/-- The most primitives that the command `i` in flight has left. -/
def State.primitivesLeft (i : Instr) (s : State) : Nat :=
  s.leftFrom i s.seq.pos

theorem State.primitivesLeft_of_pos {s : State} {p : Pos} (hpos : s.seq.pos = p) (i : Instr) :
    s.primitivesLeft i = s.leftFrom i p := by
  rw [State.primitivesLeft, hpos]

theorem axisLeft_pos (mode : Option TransportMode) (p : AxisPos) : 0 < axisLeft mode p := by
  cases p <;> simp [axisLeft, axisSteps] <;> split <;> simp

theorem axisLeft_le (mode : Option TransportMode) (p : AxisPos) :
    axisLeft mode p ≤ axisSteps mode := by
  cases p <;> simp [axisLeft, axisSteps] <;> split <;> simp

theorem rawLeft_le (mode : Option TransportMode) (p : RawPos) : rawLeft mode p ≤ rawSteps mode := by
  rw [rawSteps_eq]
  cases p with
  | csOn => exact (rawSteps_eq mode).le
  | x p | y p => have := axisLeft_le mode p; simp only [rawLeft]; omega
  | csOff => simp only [rawLeft]; omega

/-- A primitive of `readAxis` that is not its last leaves one fewer (R136). -/
theorem State.axisLeft_of_step {c : Byte} {p q : AxisPos} {s : State}
    (h : (s.axisStep c p).1 = .step q) :
    axisLeft s.status.modeEff q + 1 = axisLeft s.status.modeEff p := by
  cases p <;> simp only [State.axisStep, AxisNext.step.injEq, reduceCtorEq] at h <;> subst h
  case command => simp only [axisLeft, axisSteps]; split <;> rfl
  case settle => by_cases hw : s.status.modeEff = some .hw <;> simp [axisLeft, axisSteps, hw]
  case highByte => rfl

/-- One of the rounds that are left, and the others. -/
theorem rounds_succ {n k : Nat} (h : k < n) (c : Nat) : (n - k) * c = c + (n - (k + 1)) * c := by
  rw [show n - k = n - (k + 1) + 1 by omega, Nat.succ_mul, Nat.add_comm]

theorem State.roundsFrom_succ {s : State} {k : Nat} (h : k < s.build.mMax) :
    s.roundsFrom k = measureSteps s + s.checkSteps + s.roundsFrom (k + 1) :=
  rounds_succ h _

theorem State.pollsFrom_succ {s : State} {k : Nat} (h : k < s.seq.limit.toNat) :
    s.pollsFrom k = s.checkSteps + s.pollsFrom (k + 1) :=
  rounds_succ h _

theorem State.samplesFrom_succ {s : State} {k : Nat} (h : k < s.prec.toNat) :
    s.samplesFrom k = rawSteps s.status.modeEff + s.samplesFrom (k + 1) :=
  rounds_succ h _

theorem State.measureSteps_eq (s : State) :
    measureSteps s = rawSteps s.status.modeEff + s.samplesFrom 0 := by
  simp [measureSteps, State.samplesFrom, Nat.add_mul]

theorem State.samplesFrom_le (s : State) (k : Nat) : s.samplesFrom k ≤ s.samplesFrom 0 :=
  Nat.mul_le_mul_right _ (Nat.sub_le_sub_left (Nat.zero_le k) _)

/-- A presence check takes its steps and what follows it (R154). -/
theorem State.leftFrom_touchedPos (i : Instr) (u : Use) (s : State) :
    s.leftFrom i (s.touchedPos u) = s.checkSteps + s.leftAfter i u := by
  unfold State.touchedPos State.checkSteps Machine.checkSteps
  split <;> rfl

/-- A measurement from its first primitive on, and what follows it (R175). -/
theorem State.leftFrom_discard (i : Instr) (s : State) :
    s.leftFrom i (.raw .discard .csOn) = measureSteps s + s.leftAfterMeasure i := by
  rw [s.measureSteps_eq, Nat.add_assoc]
  rfl

/-! ### A step of the command in flight leaves fewer primitives -/

/-- A primitive does not touch what the count is made of. -/
theorem SerialStep.leftFrom {s t : State} (h : SerialStep s t) (i : Instr) (p : Pos) :
    t.leftFrom i p = s.leftFrom i p := by
  rw [h.frame]
  rfl

section
variable {s t : State} {i : Instr}

/-- A primitive of a call of `readAxis` leaves fewer, `c` being what follows the call (R136). -/
theorem State.callStep_left {a : AxisCall} {p : AxisPos} {c : Nat}
    (hpos : s.seq.pos = a.place p)
    (hplace : ∀ q, s.leftFrom i (a.place q) = axisLeft s.status.modeEff q + c)
    (hdest : s.leftFrom i a.dest = c) :
    (s.callStep a p).primitivesLeft i < s.primitivesLeft i := by
  have hserial := (s.axisStep_serial a.command p).1
  rw [s.primitivesLeft_of_pos hpos, hplace]
  unfold State.callStep
  split
  · next q t hstep =>
    have hone := s.axisLeft_of_step (by rw [hstep])
    rw [hstep] at hserial
    change t.leftFrom i (a.place q) < _
    rw [hserial.leftFrom, hplace]
    omega
  · next v t hstep =>
    rw [hstep] at hserial
    change t.leftFrom i a.dest < _
    rw [hserial.leftFrom, hdest]
    exact Nat.lt_add_of_pos_left (axisLeft_pos _ p)

/-- A primitive of a transaction leaves fewer, if the computation around its last one leaves no more
than what follows the transaction (R137). -/
theorem State.rawStep_left {u : Use} {p : RawPos} {done : Sample → State → State}
    (hpos : s.seq.pos = .raw u p)
    (hd : ∀ v, (done v (s.setCs false)).primitivesLeft i ≤ s.leftAfter i u) :
    (s.rawStep u p done).primitivesLeft i < s.primitivesLeft i := by
  cases p with
  | csOn =>
    have hone := rawSteps_eq s.status.modeEff
    change s.leftFrom i (.raw u (.x .command)) < _
    simp only [s.primitivesLeft_of_pos hpos, State.leftFrom, rawLeft, axisLeft]
    omega
  | csOff =>
    have hle := hd ⟨s.seq.res.x, s.seq.res.y⟩
    simp only [State.rawStep, s.primitivesLeft_of_pos hpos, State.leftFrom, rawLeft]
    omega
  | x a =>
    rw [State.rawStep_x]
    exact State.callStep_left hpos (c := axisSteps s.status.modeEff + 1 + s.leftAfter i u)
      (fun _ => by simp only [xCall, State.leftFrom, rawLeft, Nat.add_assoc]) rfl
  | y a =>
    rw [State.rawStep_y]
    exact State.callStep_left hpos (c := 1 + s.leftAfter i u)
      (fun _ => by simp only [yCall, State.leftFrom, rawLeft, Nat.add_assoc]) rfl

/-- A PenSample leaves fewer, if what it answers leaves no more than what follows the check. -/
theorem State.penStep_left {u : Use} {done : Bool → State → State}
    (hpos : s.seq.pos = .pen u)
    (hd : ∀ b, (done b s.penSample.2).primitivesLeft i ≤ s.leftAfter i u) :
    (s.penStep done).primitivesLeft i < s.primitivesLeft i := by
  rw [s.primitivesLeft_of_pos hpos]
  exact Nat.lt_one_add_iff.2 (hd _)

/-- After the discard read PREC.N samples are left, of which there is at least one (R42, R174). -/
theorem discardDone_left (hprec : s.prec ≠ 0#8) :
    (discardDone s).primitivesLeft i ≤ s.leftAfter i .discard := by
  have hpos : 0 < s.prec.toNat := Nat.pos_of_ne_zero fun h0 => hprec (BitVec.eq_of_toNat_eq h0)
  rw [State.leftAfter, State.samplesFrom_succ hpos, Nat.add_assoc]
  rfl

theorem sampleDone_left {done : Sample → State → State} {v : Sample}
    (hd : ∀ m, (done m (s.accumulate v)).primitivesLeft i ≤ s.leftAfterMeasure i) :
    (sampleDone done v s).primitivesLeft i ≤ s.leftAfter i .sample := by
  unfold sampleDone
  split
  · next hmore =>
    rw [State.leftAfter, State.samplesFrom_succ hmore, Nat.add_assoc]
    rfl
  · exact Nat.le_add_left_of_le (hd _)

theorem measurementDone_left (hg : gathers i = true) (m : Sample) :
    (measurementDone m s).primitivesLeft i ≤ s.leftAfterMeasure i := by
  have hnext := s.leftFrom_touchedPos i .check
  rw [State.leftAfter, State.leftAfterCheck, if_pos hg] at hnext
  rw [State.leftAfterMeasure, if_pos hg]
  exact hnext.le

/-- The measurement that begins is the first of the rounds left (R193). -/
theorem State.leftFrom_round (hg : gathers i = true) (hi : s.seq.i < s.build.mMax) :
    s.leftFrom i (.raw .discard .csOn) = s.roundsFrom s.seq.i := by
  rw [State.leftFrom_discard, State.leftAfterMeasure, if_pos hg, State.roundsFrom_succ hi,
    Nat.add_assoc]

theorem checkDone_left (hg : gathers i = true) (b : Bool) :
    (checkDone b s).primitivesLeft i ≤ s.leftAfter i .check := by
  rw [State.leftAfter, State.leftAfterCheck, if_pos hg]
  unfold checkDone
  split_ifs with hb hmore
  · exact Nat.zero_le _
  · exact (State.leftFrom_round (s := { s with seq := { s.seq with i := s.seq.i + 1 } })
      hg hmore).le
  · exact Nat.zero_le _

theorem gateDone_left (hg : gathers i = true) (hi : s.seq.i < s.build.mMax) (b : Bool) :
    (gateDone b s).primitivesLeft i ≤ s.leftAfter i .gate := by
  cases b with
  | false => exact Nat.zero_le _
  | true => exact (State.leftFrom_round hg hi).le

/-- The poll that begins is the first of the polls left (R157). -/
theorem State.leftFrom_poll (hw : waits i = true) (hp : s.seq.p < s.seq.limit.toNat) :
    s.leftFrom i (s.touchedPos .check) = s.pollsFrom s.seq.p := by
  have hg : gathers i = false := by cases i <;> simp_all [waits, gathers]
  rw [State.leftFrom_touchedPos, State.pollsFrom_succ hp, State.leftAfter, State.leftAfterCheck,
    if_neg (by simp [hg]), if_pos hw]

theorem waitDone_left {target : Bool} (hw : waits i = true) (hlimit : s.seq.limit ≠ 0#32)
    (hp : s.seq.p < s.seq.limit.toNat) (b : Bool) :
    (waitDone target b s).primitivesLeft i ≤ s.leftAfter i .check := by
  have hg : gathers i = false := by cases i <;> simp_all [waits, gathers]
  rw [State.leftAfter, State.leftAfterCheck, if_neg (by simp [hg]), if_pos hw]
  unfold waitDone
  dsimp only
  split_ifs with htarget hend
  · exact Nat.zero_le _
  · exact Nat.zero_le _
  · have hmore : s.seq.p + 1 < s.seq.limit.toNat := lt_of_le_of_ne hp fun h => hend ⟨hlimit, h⟩
    exact (State.leftFrom_poll (s := { s with seq := { s.seq with p := s.seq.p + 1 } }) hw hmore).le

/-- A step to the commit leaves no primitive. -/
theorem State.goto_commit_left (n : Nat) : (s.goto .commit).primitivesLeft i ≤ n :=
  Nat.zero_le n

theorem gatherStep_left (hprec : s.prec ≠ 0#8) (hg : gathers i = true)
    (hs : gatherStep s = some t) : t.primitivesLeft i < s.primitivesLeft i := by
  unfold gatherStep at hs
  split at hs <;> cases hs
  · next hpos => exact State.rawStep_left hpos fun _ => discardDone_left (s := s.setCs false) hprec
  · next hpos =>
    exact State.rawStep_left hpos fun _ => sampleDone_left (s := s.setCs false)
      (measurementDone_left (s := (s.setCs false).accumulate _) hg)
  · next hpos => exact State.penStep_left hpos (checkDone_left (s := s.penSample.2) hg)
  · next hpos =>
    exact State.rawStep_left hpos fun v => checkDone_left (s := s.setCs false) hg v.valid

theorem stepReadTouch_left (hprec : s.prec ≠ 0#8) (hg : gathers i = true)
    (hi : s.seq.i < s.build.mMax) (hne : s.seq.pos ≠ .commit) (hs : stepReadTouch s = some t) :
    t.primitivesLeft i < s.primitivesLeft i := by
  unfold stepReadTouch at hs
  split at hs
  · next hpos =>
    cases hs
    exact State.penStep_left hpos (gateDone_left (s := s.penSample.2) hg hi)
  · next hpos =>
    cases hs
    exact State.rawStep_left hpos fun v => gateDone_left (s := s.setCs false) hg hi v.valid
  · next hpos => exact absurd hpos hne
  iterate 8 (· exact gatherStep_left hprec hg hs)
  all_goals cases hs

theorem stepWait_left {target : Bool} (hw : waits i = true) (hlimit : s.seq.limit ≠ 0#32)
    (hp : s.seq.p < s.seq.limit.toNat) (hne : s.seq.pos ≠ .commit)
    (hs : stepWait target s = some t) : t.primitivesLeft i < s.primitivesLeft i := by
  unfold stepWait at hs
  split at hs <;> cases hs
  · next hpos =>
    exact State.penStep_left hpos (waitDone_left (s := s.penSample.2) hw hlimit hp)
  · next hpos =>
    exact State.rawStep_left hpos fun v =>
      waitDone_left (s := s.setCs false) hw hlimit hp v.valid
  · next hpos => exact absurd hpos hne

theorem stepReadAxis_left (hne : s.seq.pos ≠ .commit) (hs : stepReadAxis s = some t) :
    t.primitivesLeft i < s.primitivesLeft i := by
  cases hpos : s.seq.pos with
  | axis p =>
    cases (stepReadAxis_axis hpos).symm.trans hs
    exact State.callStep_left hpos (c := 0) (fun _ => rfl) rfl
  | commit => exact absurd hpos hne
  | _ => simp [stepReadAxis, hpos] at hs

/-- Before its commit every step of the command in flight leaves fewer primitives, unless it polls
without a bound. -/
theorem stepOf_left (h : s.Inv) (ok : s.InFlightOk i) (hlimit : waits i = true → s.seq.limit ≠ 0#32)
    (hne : s.seq.pos ≠ .commit) (hs : stepOf i s = some t) :
    t.primitivesLeft i < s.primitivesLeft i := by
  cases i
  case readTouch => exact stepReadTouch_left h.precision rfl (ok.measuring rfl) hne hs
  case waitTouch | waitRelease =>
    exact stepWait_left rfl (hlimit rfl) (ok.polling rfl hne (hlimit rfl)) hne hs
  case readAxis => exact stepReadAxis_left hne hs
  case gather =>
    simp only [stepOf, stepGather] at hs
    split at hs
    · next hpos => exact absurd hpos hne
    all_goals exact gatherStep_left h.precision rfl hs
  case isTouched =>
    simp only [stepOf, stepIsTouched] at hs
    split at hs <;> cases hs
    · next hpos => exact State.penStep_left hpos fun _ => State.goto_commit_left _
    · next hpos => exact State.rawStep_left hpos fun _ => State.goto_commit_left _
    · next hpos => exact absurd hpos hne
  case measure =>
    simp only [stepOf, stepMeasure] at hs
    split at hs <;> cases hs
    · next hpos =>
      exact State.rawStep_left hpos fun _ => discardDone_left (s := s.setCs false) h.precision
    · next hpos =>
      exact State.rawStep_left hpos fun _ => sampleDone_left (s := s.setCs false)
        fun _ => State.goto_commit_left _
    · next hpos => exact absurd hpos hne
  case readRaw =>
    simp only [stepOf, stepReadRaw] at hs
    split at hs <;> cases hs
    · next hpos => exact State.rawStep_left hpos fun _ => State.goto_commit_left _
    · next hpos => exact absurd hpos hne
  case csAssert | csDeassert | xferWrite | xferRead =>
    simp only [stepOf, stepCsAssert, stepCsDeassert, stepXferWrite, stepXferRead] at hs
    split at hs <;> cases hs
    · next hpos =>
      rw [s.primitivesLeft_of_pos hpos]
      exact Nat.zero_lt_one
    · next hpos => exact absurd hpos hne
  case nop | init | setCal | setPrec | transform =>
    simp only [stepOf, stepNop, stepInit, stepSetCal, stepSetPrec, stepTransform] at hs
    split at hs <;> cases hs
    next hpos => exact absurd hpos hne

/-! ### The whole command's primitives bound them -/

theorem State.roundsFrom_le (s : State) (k : Nat) :
    s.roundsFrom k ≤ s.build.mMax * (measureSteps s + s.checkSteps) :=
  Nat.mul_le_mul_right _ (Nat.sub_le _ k)

/-- At a position of a command that is built of transactions and checks, what is left is bounded by
what is left at the first primitive of one (R137, R154). -/
theorem leftFrom_le_of_sampledPosOk {uses checks : List Use} {p : Pos} {n : Nat}
    (hp : sampledPosOk s.cfg.useIrq s.status.modeEff uses checks p = true)
    (huse : ∀ u ∈ uses, rawSteps s.status.modeEff + s.leftAfter i u ≤ n)
    (hcheck : ∀ u ∈ checks, s.checkSteps + s.leftAfter i u ≤ n) : s.leftFrom i p ≤ n := by
  cases p with
  | raw u p =>
    refine (Nat.add_le_add_right (rawLeft_le _ p) _).trans ?_
    simp only [sampledPosOk, Bool.and_eq_true, Bool.or_eq_true, List.contains_iff_mem,
      Bool.not_eq_true'] at hp
    obtain ⟨hu | ⟨hu, hirq⟩, -⟩ := hp
    · exact huse u hu
    · simpa [State.checkSteps, Machine.checkSteps, hirq] using hcheck u hu
  | pen u =>
    simp only [sampledPosOk, Bool.and_eq_true, List.contains_iff_mem] at hp
    obtain ⟨hu, hirq⟩ := hp
    simpa [State.leftFrom, State.checkSteps, Machine.checkSteps, hirq] using hcheck u hu
  | commit => exact Nat.zero_le n
  | idle | setCs | exchange | axis => cases hp

/-- A transaction or a check of a gather is part of one of its rounds (R197). -/
theorem round_le (hg : gathers i = true) (hi : s.seq.i < s.build.mMax) :
    rawSteps s.status.modeEff + s.leftAfter i .discard ≤
        s.build.mMax * (measureSteps s + s.checkSteps) ∧
      rawSteps s.status.modeEff + s.leftAfter i .sample ≤
        s.build.mMax * (measureSteps s + s.checkSteps) ∧
      s.checkSteps + s.leftAfter i .check ≤ s.build.mMax * (measureSteps s + s.checkSteps) := by
  have hround := s.roundsFrom_le s.seq.i
  have hsamples := s.samplesFrom_le s.seq.j
  have hmeasure := s.measureSteps_eq
  rw [State.roundsFrom_succ hi] at hround
  simp only [State.leftAfter, State.leftAfterMeasure, State.leftAfterCheck, if_pos hg]
  omega

/-- The primitives left are at most those of the whole command (R237, R178, R197, R140). -/
theorem primitivesLeft_le_primitiveBound (ok : s.InFlightOk i)
    (hlimit : waits i = true → s.seq.limit ≠ 0#32) :
    s.primitivesLeft i ≤ primitiveBound i s := by
  by_cases hne : s.seq.pos = .commit
  · rw [s.primitivesLeft_of_pos hne]
    exact Nat.zero_le _
  have hp := ok.position
  rw [State.primitivesLeft]
  cases i
  case nop | init | setCal | setPrec | transform => exact absurd (eq_commit_of_posOk rfl hp) hne
  case csAssert | csDeassert | xferWrite | xferRead =>
    cases hpos : s.seq.pos <;>
      simp_all [posOk, csPosOk, exchangePosOk, State.leftFrom, primitiveBound]
  case readAxis =>
    cases hpos : s.seq.pos with
    | axis p => exact axisLeft_le _ p
    | _ => simp_all [posOk, readAxisPosOk]
  case readRaw =>
    refine leftFrom_le_of_sampledPosOk hp (fun u hu => ?_) nofun
    obtain rfl := List.mem_singleton.1 hu
    exact le_rfl
  case isTouched =>
    refine leftFrom_le_of_sampledPosOk hp nofun fun u hu => ?_
    obtain rfl := List.mem_singleton.1 hu
    exact le_rfl
  case waitTouch | waitRelease =>
    have hpolls := State.pollsFrom_succ (ok.polling rfl hne (hlimit rfl))
    refine leftFrom_le_of_sampledPosOk hp nofun fun u hu => ?_
    obtain rfl := List.mem_singleton.1 hu
    exact hpolls.symm.le.trans (Nat.mul_le_mul_right _ (Nat.sub_le _ _))
  case measure =>
    have hsamples := s.samplesFrom_le s.seq.j
    refine leftFrom_le_of_sampledPosOk hp ?_ nofun
    simp [State.leftAfter, State.leftAfterMeasure, gathers, primitiveBound, s.measureSteps_eq,
      hsamples]
  case gather a =>
    obtain ⟨hdiscard, hsample, hcheck⟩ := round_le (i := .gather a) rfl (ok.measuring rfl)
    exact leftFrom_le_of_sampledPosOk hp (by simpa [primitiveBound] using ⟨hdiscard, hsample⟩)
      (by simpa [primitiveBound] using hcheck)
  case readTouch a =>
    obtain ⟨hdiscard, hsample, hcheck⟩ := round_le (i := .readTouch a) rfl (ok.measuring rfl)
    have hgate : s.leftAfter (.readTouch a) .gate ≤ _ := s.roundsFrom_le s.seq.i
    exact leftFrom_le_of_sampledPosOk hp
      (by simpa [primitiveBound] using
        ⟨Nat.le_add_left_of_le hdiscard, Nat.le_add_left_of_le hsample⟩)
      (by simpa [primitiveBound] using ⟨le_of_add_le_right hcheck, hgate⟩)

end

section
variable {s t : State} {i : Instr}

/-! ### Every command but an unbounded wait ends -/

/-- The command `i` is in flight, and is no wait without a bound. -/
structure State.Ending (i : Instr) (s : State) : Prop where
  inv : s.Inv
  busy : s.status.busy = true
  inFlight : s.seq.inFlight = some i
  limit : waits i = true → s.seq.limit ≠ 0#32

/-- The sequencer's step ends the command, or leaves it fewer primitives (R6, R86). -/
theorem State.Ending.step_of_sequencerTurn (h : s.Ending i) (hturn : s.nextIsSequencer = true) :
    ∃ t, step s = .next t ∧
      (t.status.busy = false ∨ (t.Ending i ∧ t.primitivesLeft i < s.primitivesLeft i)) := by
  obtain ⟨t, hstep⟩ := stepNeverStops s h.inv
  refine ⟨t, hstep, ?_⟩
  obtain ⟨e, j, -, hj, hbody⟩ := Machine.step_of_sequencerTurn hturn hstep
  obtain rfl : j = i := Option.some.inj (hj.symm.trans h.inFlight)
  by_cases hpos : s.seq.pos = .commit
  · rw [stepOf_commit (s := { s with env := e }) hpos, Option.some.injEq] at hbody
    exact .inl (hbody ▸ commitOf_busy j _)
  · have hframe := (stepOf_body (s := { s with env := e }) hpos hbody).frame
    have hleft : t.primitivesLeft j < s.primitivesLeft j :=
      stepOf_left (s := { s with env := e }) (env_inv e h.inv)
        ((env_inv e h.inv).inFlightOk h.busy h.inFlight) h.limit hpos hbody
    refine .inr ⟨⟨stepKeepsTheInvariant s t h.inv hstep, ?_, ?_, ?_⟩, hleft⟩
    all_goals rw [hframe]
    · exact h.busy
    · exact h.inFlight
    · exact h.limit

/-- A host access leaves the command in flight, and no primitive fewer or more (R74): CFG is locked,
or the command only commits. -/
theorem State.Ending.of_access {e : Env} (h : s.Ending i) (hstep : step s = .next t)
    (hacc : HostAccess { s with env := e } t) :
    t.Ending i ∧ t.primitivesLeft i = s.primitivesLeft i := by
  have hframe := hacc.frame
  refine ⟨⟨stepKeepsTheInvariant s t h.inv hstep, ?_, ?_, ?_⟩, ?_⟩
  · rw [hframe]; exact h.busy
  · rw [hframe]; exact h.inFlight
  · rw [hframe]; exact h.limit
  · have ok := h.inv.inFlightOk h.busy h.inFlight
    cases hl : s.cfgLocked with
    | true =>
      rw [hacc.cfg hl] at hframe
      rw [hframe]
      rfl
    | false =>
      have hpos := eq_commit_of_posOk (ok.of_unlocked hl).1 ok.position
      have hpos' : t.seq.pos = .commit := by rw [hframe]; exact hpos
      rw [s.primitivesLeft_of_pos hpos, t.primitivesLeft_of_pos hpos']
      rfl

/-- By induction over the primitives left, and by `fair_induction` between two of the sequencer's
steps. -/
theorem State.Ending.endsWithin (h : s.Ending i) : EndsWithin (s.primitivesLeft i + 1) s := by
  induction hn : s.primitivesLeft i using Nat.strong_induction_on generalizing s with
  | _ n ih =>
    have hr : s.rstN = true := (h.inv.inFlight h.busy).1
    refine fair_induction (P := fun s => s.Ending i → s.primitivesLeft i = n → EndsWithin (n + 1) s)
      ?turn ?host h.busy hr h hn
    case turn =>
      rintro s hb - (hturn | hreset) h rfl
      · obtain ⟨t, hstep, idle | ⟨ht, hlt⟩⟩ := h.step_of_sequencerTurn hturn
        · exact (EndsWithin.of_idle idle 0).of_step hb hstep (by simp [hturn])
        · exact (ih _ hlt ht rfl).of_step hb hstep (by simp only [hturn, if_true]; omega)
      · obtain ⟨hturn, t, hstep, idle⟩ := step_of_nextIsReset hreset
        exact (EndsWithin.of_idle idle 0).of_step hb hstep (by simp [hturn])
    case host =>
      intro s t e hb hturn hstep hacc hends h hn
      obtain ⟨ht, hleft⟩ := h.of_access hstep hacc
      exact (hends ht (hleft.trans hn)).of_step hb hstep (by simp [hturn])

end

/-- Settles O6: the primitives left end the run, and are at most the command's. -/
theorem commandsEnd : Obligations.CommandsEnd := by
  unfold Obligations.CommandsEnd
  intro s i h hb hi hlimit
  have hle := primitivesLeft_le_primitiveBound (h.inFlightOk hb hi) hlimit
  obtain ⟨n, t, ht, idle, hpassed, hcount⟩ := State.Ending.endsWithin ⟨h, hb, hi, hlimit⟩
  exact ⟨n, t, ht, idle, hpassed, hcount.trans (Nat.succ_le_succ hle)⟩

end Sys2Proof.Machine
end
